-- ==== Sys2Proof/Word.lean ====
section
/-! DEFINITION. The word types of the block (00_scope.md rule R9) and the plainest arithmetic on them. -/

namespace Sys2Proof

/-- A byte is 8 bits (00_scope.md R9). -/
abbrev Byte := BitVec 8

/-- The CRC is 16 bits (00_scope.md R9). -/
abbrev Word16 := BitVec 16

/-- `zext_16(b)` of 00_scope.md section 6. -/
abbrev zext16 (b : Byte) : Word16 := b.setWidth 16

/-- `v[7:0]` of a 16-bit number. -/
abbrev lowByte (v : Word16) : Byte := v.setWidth 8

/-- `v[15:8]` of a 16-bit number. -/
abbrev highByte (v : Word16) : Byte := (v >>> 8).setWidth 8

/-- `le16(lo, hi) = lo + 256 * hi` of 00_scope.md section 6: the byte that comes first is the low one. -/
abbrev le16 (lo hi : Byte) : Word16 := (hi.setWidth 16 <<< 8) ||| lo.setWidth 16

/-- `evaluated c k` is `k c`; the case split on the number makes an evaluator compute `c` before it goes
on, so that a long CRC is computed byte by byte and not as one nested term. -/
def evaluated {α : Type} (c : Word16) (k : Word16 → α) : α :=
  match c.toNat with
  | 0 => k 0#16
  | n + 1 => k (BitVec.ofNat 16 (n + 1))

@[simp] theorem evaluated_eq {α : Type} (c : Word16) (k : Word16 → α) : evaluated c k = k c := by
  unfold evaluated
  split <;> rename_i h
  · congr 1
    exact (BitVec.eq_of_toNat_eq (by simpa using h)).symm
  · congr 1
    apply BitVec.eq_of_toNat_eq
    have := c.isLt
    simp only [BitVec.toNat_ofNat]
    omega

end Sys2Proof
end

