-- ==== Sys2Proof/Config.lean ====
section
/-! DEFINITION. What an implementation of the block fixes: the constants of 00_scope.md rule R5, the
parameters that rule R8 leaves open (with the default the spec chose), the poll intervals of rule R6, and
the two free values of the model. -/

namespace Sys2Proof

/-! Constants of 00_scope.md rule R5. -/

/-- `SYNC`, first byte of every frame (R5). -/
abbrev Config.sync : Byte := 0x02#8
/-- `CRC_POLY`, XOR constant of the right-shifting CRC (R5). -/
abbrev Config.crcPoly : Word16 := 0x8408#16
/-- `CRC_INIT`, CRC start value (R5). -/
abbrev Config.crcInit : Word16 := 0x0000#16
/-- `MAX_PAYLOAD`, largest payload `encode` does not reject (R5). -/
abbrev Config.maxPayload : Nat := 250
/-- `MIN_LEN`, smallest legal declared frame length (R5). -/
abbrev Config.minLen : Nat := 6
/-- `ACK_CODE`, command byte of an ACK frame and the byte that classifies a response as `Ack` (R5). -/
abbrev Config.ackCode : Byte := 0x00#8
/-- `NACK_CODE`, command byte of a NACK frame and the byte that classifies a response as `Nack` (R5). -/
abbrev Config.nackCode : Byte := 0xFF#8
/-- `T_SPACING` in ms, floor between two request issues (R5). -/
abbrev Config.tSpacing : Nat := 150
/-- `T_BREAK` in ms, how long the line break is held (R5). -/
abbrev Config.tBreak : Nat := 250
/-- `T_READ` in ms, read timeout of the response phase (R5). -/
abbrev Config.tRead : Nat := 2000
/-- `INFO_LEN`, exact payload length of an identification record (R5). -/
abbrev Config.infoLen : Nat := 109
/-- `BILLOPT_LEN`, exact payload length of a bill-options answer (R5). -/
abbrev Config.billOptLen : Nat := 24
/-- The longest frame: `LEN` is one byte (00_scope.md R9, 20_memory.md R51). -/
abbrev Config.maxFrame : Nat := 255
/-- `BAUD` of name `Slow` (R5). -/
abbrev Config.baudSlow : Nat := 9600
/-- `BAUD` of name `Fast` (R5). -/
abbrev Config.baudFast : Nat := 19200
/-- The default of the parameter `DELAY_POLL_MS` (R6): an example of the source. -/
abbrev Config.delayPollMs : Nat := 10
/-- The default of the parameter `TX_POLL_MS` (R6): an approximation of the source. -/
abbrev Config.txPollMs : Nat := 2

/-! Command codes of 30_encoding.md rule R89. -/

/-- `GET_STATUS` (R89): no named operation issues it. -/
abbrev Config.cmdGetStatus : Byte := 0x31#8
/-- `POLL` (R89): issued by `poll` and `getBillOptions`. -/
abbrev Config.cmdPoll : Byte := 0x33#8
/-- `STACK` (R89): issued by `stackBill`. -/
abbrev Config.cmdStack : Byte := 0x35#8
/-- `RETURN` (R89): issued by `returnBill`. -/
abbrev Config.cmdReturn : Byte := 0x36#8
/-- `EXT_IDENT` (R89): issued by `info`. -/
abbrev Config.cmdExtIdent : Byte := 0x3E#8
/-- `GET_BILL_TABLE` (R89): issued by `getBillTable`. -/
abbrev Config.cmdGetBillTable : Byte := 0x41#8
/-- `REC_CASSETTE_STATUS` (R89): issued by `cassetteStatus`. -/
abbrev Config.cmdRecCassetteStatus : Byte := 0x70#8

/-- FREE VALUE (41_transport_governor.md R153, 93_implementation_defined.md U4): when a byte is available
and the deadline has also passed, the source does not say which wins and a model admits both outcomes.
The `n`-th such tie returns the byte when this is true and `Timeout` when it is false. No body: nothing can
be proved of it. Assumption log 2. -/
opaque Config.tieTakesByte : Nat → Bool

/-- FREE VALUE (10_state.md R21): `rx_count` is a register "per operation", "dead when the block is `Idle`", which "a model may
leave unconstrained there". What it holds in `Idle` after the `n`-th operation has ended. No body: nothing can be proved of it
but that it is a byte. Assumption log 8. -/
opaque Config.idleRxCount : Nat → Byte

/-- `RX_TIMEOUT_SCOPE` (R8, 41_transport_governor.md R152). -/
inductive TimeoutScope
  | wholeReceive
  | perByte
  deriving DecidableEq, Repr

/-- `BILLOPT_OFFSETS` (R8): three offsets in 0..21. -/
structure BillOptOffsets where
  acceptable : Fin 22
  security : Fin 22
  routing : Fin 22
  deriving DecidableEq, Repr

/-- The units whose version strings an identification record carries: "head/CPU/packer/cassette slots 1-3"
(43_response_decoder.md R227). The source gives "no count of version strings": that there are these six units, with the
slots 1 to 3 read as the cassettes' only, is the model's reading. DEDUCED, assumption log 25. -/
inductive VersionSlot
  | head
  | cpu
  | packer
  | cassette1
  | cassette2
  | cassette3
  deriving DecidableEq, Repr

/-- The fields of an identification record, as far as the source names them (43_response_decoder.md R227). A boot and a program
version for each of the six units is the model's reading (assumption log 25); a layout lists those it has. -/
inductive InfoName
  | partNumber
  | serialNumber
  | assetNumber
  | bootVersion (slot : VersionSlot)
  | programVersion (slot : VersionSlot)
  deriving DecidableEq, Repr

/-- One row of `INFO_LAYOUT` (R8): field, offset, length over the 109 bytes. -/
structure InfoField where
  name : InfoName
  offset : Nat
  length : Nat
  deriving DecidableEq, Repr

/-- The parameters of the model: those that 00_scope.md rule R8 leaves open, "each a named argument of the model", and the two
poll intervals of rule R6. They are fixed before construction and no operation writes them (92_eei_decisions.md D34). -/
structure Params where
  /-- `INC_CMD_CODE`. -/
  incCmdCode : Byte
  /-- `NACK_ON_TIMEOUT`. -/
  nackOnTimeout : Bool
  /-- `RX_TIMEOUT_SCOPE`. -/
  rxTimeoutScope : TimeoutScope
  /-- `CLEAR_RX_BEFORE_SEND`. -/
  clearRxBeforeSend : Bool
  /-- `INFO_LAYOUT`; `none` is the default: raw bytes only. -/
  infoLayout : Option (List InfoField)
  /-- `BILLOPT_OFFSETS`. -/
  billOptOffsets : BillOptOffsets
  /-- `DELAY_POLL_MS` (R6), ms. "No rule depends on [its] value, only on [its] being positive": no step reads it. -/
  delayPollMs : Nat
  /-- `TX_POLL_MS` (R6), ms; likewise. -/
  txPollMs : Nat
  deriving DecidableEq, Repr

/-- The defaults of 00_scope.md rules R6 and R8. -/
def Params.default : Params where
  incCmdCode := 0xFF#8
  nackOnTimeout := true
  rxTimeoutScope := .wholeReceive
  clearRxBeforeSend := true
  infoLayout := none
  billOptOffsets := { acceptable := 0, security := 3, routing := 6 }
  delayPollMs := Config.delayPollMs
  txPollMs := Config.txPollMs

end Sys2Proof
end

