-- ==== Sys2Proof/Machine/Crc.lean ====
section
/-! DEFINITION. The CRC-16 of the link (40_frame_codec.md section 1). -/

namespace Sys2Proof.Machine

/-- One of the "8 shift-and-conditional-XOR iterations per byte" (40_frame_codec.md R111): bit 0 is tested,
the register is shifted right with a zero entering at the top, and the constant is XORed in where the bit
was 1. -/
def crcShift (c : Word16) : Word16 :=
  if c.getLsbD 0 then (c >>> 1) ^^^ Config.crcPoly else c >>> 1

/-- `n` iterations of `crcShift`. -/
def crcShifts : Nat → Word16 → Word16
  | 0, c => c
  | n + 1, c => crcShifts n (crcShift c)

/-- `crc_update(c, b)` (R111): the byte enters the low 8 bits of the register, then eight iterations. -/
def crcUpdate (c : Word16) (b : Byte) : Word16 := crcShifts 8 (c ^^^ zext16 b)

/-- The register run over a byte list from a given value, first byte on the wire first (R112). -/
def crcFrom : Word16 → List Byte → Word16
  | c, [] => c
  | c, b :: s => evaluated (crcUpdate c b) fun c' => crcFrom c' s

/-- `crc16(s)` (R110): start value 0, no final XOR, no reflection of the result. -/
def crc16 (s : List Byte) : Word16 := crcFrom Config.crcInit s

/-- The bit-serial form of R113, for `j` bits already consumed: `t <- c[0] ^ b[j]`, shift, XOR where `t` is 1. -/
def crcBitSerial (b : Byte) : Nat → Nat → Word16 → Word16
  | 0, _, c => c
  | n + 1, j, c =>
    let t := c.getLsbD 0 ^^ b.getLsbD j
    crcBitSerial b n (j + 1) (if t then (c >>> 1) ^^^ Config.crcPoly else c >>> 1)

/-- The split form of R113: only the low byte runs through the iterations. -/
def crcSplit (c : Word16) (b : Byte) : Word16 :=
  (c >>> 8) ^^^ crcShifts 8 (zext16 (lowByte (c ^^^ zext16 b)))

end Sys2Proof.Machine
end

