-- ==== Sys2Proof/Machine/Operands.lean ====
section
/-! DEFINITION. How the fields of a frame are assembled and taken apart (30_encoding.md sections 1 and 3,
20_memory.md rules R55, R63). There are no immediates to sign-extend, scale or shift (R88): an operand is a
byte, a byte list, or the little-endian CRC. -/

namespace Sys2Proof.Machine

/-- The CRC field of a frame with the given bytes before it, low byte first (20_memory.md R63). -/
def crcBytes (body : List Byte) : List Byte := [lowByte (crc16 body), highByte (crc16 body)]

/-- A frame: the bytes before the CRC field, then the CRC field (30_encoding.md R83). -/
def sealFrame (body : List Byte) : List Byte := body ++ crcBytes body

/-- Offsets 0 to `n+3` of a request, ACK or NACK frame (30_encoding.md R87): `LEN` is `len(payload) + 6`. -/
def requestBody (a cmd : Byte) (payload : List Byte) : List Byte :=
  [Config.sync, a, BitVec.ofNat 8 (payload.length + 6), cmd] ++ payload

/-- A request, ACK or NACK frame (30_encoding.md R81, R87). -/
def requestFrame (a cmd : Byte) (payload : List Byte) : List Byte :=
  sealFrame (requestBody a cmd payload)

/-- Offsets 0 to `L-3` of a response (40_frame_codec.md R126): `LEN` is `len(data) + 5`. -/
def responseBody (a : Byte) (data : List Byte) : List Byte :=
  [Config.sync, a, BitVec.ofNat 8 (data.length + 5)] ++ data

/-- The frame a slave sends for the message body `data` (40_frame_codec.md R126). -/
def responseFrame (a : Byte) (data : List Byte) : List Byte := sealFrame (responseBody a data)

/-- A slave frame whose CRC field holds `carried`, whatever the CRC of the bytes before it is. -/
def responseFrameCarrying (a : Byte) (data : List Byte) (carried : Word16) : List Byte :=
  responseBody a data ++ [lowByte carried, highByte carried]

/-- "all bytes except the trailing two" (40_frame_codec.md R123). -/
def protectedPart (bytes : List Byte) : List Byte := bytes.take (bytes.length - 2)

/-- The carried CRC `le16(bytes[L-2], bytes[L-1])` (40_frame_codec.md R120, R123). -/
def carriedCrc (bytes : List Byte) : Word16 :=
  le16 (bytes.getD (bytes.length - 2) 0) (bytes.getD (bytes.length - 1) 0)

/-- The message body of a response, offsets 3 to `L-3` (30_encoding.md R86). -/
def messageBody (bytes : List Byte) : List Byte := (protectedPart bytes).drop 3

end Sys2Proof.Machine
end

