-- ==== Sys2Proof/Syntax.lean ====
section
/-! DEFINITION. The syntax: one constructor of `Instr` for each row of spec/opcode_table.json (10 host
operations, 9 frames of the master, 8 classes of frame of the slave, 27 status rows, 17 unit functions;
00_scope.md rule R2, 30_encoding.md rules R80 to R99). The address, the CRC and the length of a frame are
operands only where the row's fields leave them open. -/

namespace Sys2Proof

/-- `BAUD`: "`Slow=9600 | Fast=19200`, selected at construction" (44_device_controller.md R250). -/
inductive Baud
  | slow
  | fast
  deriving DecidableEq, Repr

/-- The line rate a `BAUD` names (00_scope.md R5, 20_memory.md R56): one of 9600 and 19200. -/
def Baud.rate : Baud → Nat
  | .slow => Config.baudSlow
  | .fast => Config.baudFast

/-- A validated response (10_state.md R35): "`Ack` | `Nack` | `IncrementCommand` | `Message(bytes)`". -/
inductive Response
  | ack
  | nack
  | incrementCommand
  | message (body : List Byte)
  deriving DecidableEq, Repr

/-- The rows of spec/opcode_table.json, in the table's order. -/
inductive Instr
  /-- `poll`: `poll()`, 44_device_controller.md R241. -/
  | poll
  /-- `getBillOptions`: `getBillOptions()`, 44_device_controller.md R242. -/
  | getBillOptions
  /-- `getBillTable`: `getBillTable()`, 44_device_controller.md R243. -/
  | getBillTable
  /-- `info`: `info()`, 44_device_controller.md R244. -/
  | info
  /-- `cassetteStatus`: `cassetteStatus()`, 44_device_controller.md R245. -/
  | cassetteStatus
  /-- `stackBill`: `stackBill()`, 44_device_controller.md R246. -/
  | stackBill
  /-- `returnBill`: `returnBill()`, 44_device_controller.md R247. -/
  | returnBill
  /-- `resetAll`: `resetAll()`, 44_device_controller.md R248: sends no frame. -/
  | resetAll
  /-- `construct`: `construct(PATH, ADDR, BAUD)`, 10_state.md R41. -/
  | construct (path : String) (addr : Byte) (baud : Baud)
  /-- `exchange`: `exchange(cmd, payload)`, 42_link_protocol.md R160; the payload may have any length (R163 says what each does). -/
  | exchange (cmd : Byte) (payload : List Byte)
  /-- `REQ_GET_STATUS`: Request frame with `CMD` 0x31 to address `a`, R249. -/
  | reqGetStatus (a : Byte)
  /-- `REQ_POLL`: Request frame with `CMD` 0x33 to address `a`, R241. -/
  | reqPoll (a : Byte)
  /-- `REQ_STACK`: Request frame with `CMD` 0x35 to address `a`, R246. -/
  | reqStack (a : Byte)
  /-- `REQ_RETURN`: Request frame with `CMD` 0x36 to address `a`, R247. -/
  | reqReturn (a : Byte)
  /-- `REQ_EXT_IDENT`: Request frame with `CMD` 0x3E to address `a`, R244. -/
  | reqExtIdent (a : Byte)
  /-- `REQ_GET_BILL_TABLE`: Request frame with `CMD` 0x41 to address `a`, R243. -/
  | reqGetBillTable (a : Byte)
  /-- `REQ_REC_CASSETTE_STATUS`: Request frame with `CMD` 0x70 to address `a`, R245. -/
  | reqRecCassetteStatus (a : Byte)
  /-- `MASTER_ACK`: ACK frame of the master to address `a`, 42_link_protocol.md R176. -/
  | masterAck (a : Byte)
  /-- `MASTER_NACK`: NACK frame of the master to address `a`, 42_link_protocol.md R177. -/
  | masterNack (a : Byte)
  /-- `RSP_ACK`: Slave frame of class `Ack` from address `a`, 40_frame_codec.md R124. -/
  | rspAck (a : Byte)
  /-- `RSP_NACK`: Slave frame of class `Nack` from address `a`, R124. -/
  | rspNack (a : Byte)
  /-- `RSP_INCREMENT_COMMAND`: Slave frame with data byte `i` = `INC_CMD_CODE`, R124. -/
  | rspIncrementCommand (a i : Byte)
  /-- `RSP_MESSAGE_1`: Slave frame with the one-byte message `d`, R124. -/
  | rspMessage1 (a d : Byte)
  /-- `RSP_MESSAGE`: Slave frame with a message body of 2 to 250 bytes, R124. -/
  | rspMessage (a : Byte) (body : List Byte)
  /-- `RSP_BAD_ADDRESS`: Illegal slave frame: `SYNC` and a second byte `x` (an error where `x` differs from `ADDR`), 42_link_protocol.md R170. -/
  | rspBadAddress (x : Byte)
  /-- `RSP_TOO_SHORT`: Illegal slave frame: declared length `n` below 6, R171. -/
  | rspTooShort (a n : Byte)
  /-- `RSP_BAD_CRC`: Illegal slave frame: the carried CRC is not the CRC of the bytes before it, R173. -/
  | rspBadCrc (a : Byte) (body : List Byte) (carried : Word16)
  /-- `STATUS_PowerUp`: A status body whose first byte is 0x10, with the body bytes after it, 43_response_decoder.md R203. -/
  | statusPowerUp (more : List Byte)
  /-- `STATUS_Initialize`: A status body whose first byte is 0x13, with the body bytes after it, 43_response_decoder.md R203. -/
  | statusInitialize (more : List Byte)
  /-- `STATUS_Idling`: A status body whose first byte is 0x14, with the body bytes after it, 43_response_decoder.md R203. -/
  | statusIdling (more : List Byte)
  /-- `STATUS_Accepting`: A status body whose first byte is 0x15, with the body bytes after it, 43_response_decoder.md R203. -/
  | statusAccepting (more : List Byte)
  /-- `STATUS_Stacking`: A status body whose first byte is 0x17, with the body bytes after it, 43_response_decoder.md R203. -/
  | statusStacking (more : List Byte)
  /-- `STATUS_Returning`: A status body whose first byte is 0x18, with the body bytes after it, 43_response_decoder.md R203. -/
  | statusReturning (more : List Byte)
  /-- `STATUS_Disabled`: A status body whose first byte is 0x19, with the body bytes after it, 43_response_decoder.md R203. -/
  | statusDisabled (more : List Byte)
  /-- `STATUS_Holding`: A status body whose first byte is 0x1A, with the body bytes after it, 43_response_decoder.md R203. -/
  | statusHolding (more : List Byte)
  /-- `STATUS_Busy`: A status body whose first byte is 0x1B, with the body bytes after it, 43_response_decoder.md R203. -/
  | statusBusy (more : List Byte)
  /-- `STATUS_Rejecting`: A status body whose first byte is 0x1C, with the body bytes after it, 43_response_decoder.md R203. -/
  | statusRejecting (more : List Byte)
  /-- `STATUS_Dispensing`: A status body whose first byte is 0x1D, with the body bytes after it, 43_response_decoder.md R203. -/
  | statusDispensing (more : List Byte)
  /-- `STATUS_Uploading`: A status body whose first byte is 0x1E, with the body bytes after it, 43_response_decoder.md R203. -/
  | statusUploading (more : List Byte)
  /-- `STATUS_SettingTypeCassette`: A status body whose first byte is 0x21, with the body bytes after it, 43_response_decoder.md R203. -/
  | statusSettingTypeCassette (more : List Byte)
  /-- `STATUS_Dispensed`: A status body whose first byte is 0x25, with the body bytes after it, 43_response_decoder.md R203. -/
  | statusDispensed (more : List Byte)
  /-- `STATUS_Unloaded`: A status body whose first byte is 0x26, with the body bytes after it, 43_response_decoder.md R203. -/
  | statusUnloaded (more : List Byte)
  /-- `STATUS_InvalidBillNumber`: A status body whose first byte is 0x28, with the body bytes after it, 43_response_decoder.md R203. -/
  | statusInvalidBillNumber (more : List Byte)
  /-- `STATUS_SetCassetteType`: A status body whose first byte is 0x29, with the body bytes after it, 43_response_decoder.md R203. -/
  | statusSetCassetteType (more : List Byte)
  /-- `STATUS_InvalidCommand`: A status body whose first byte is 0x30, with the body bytes after it, 43_response_decoder.md R203. -/
  | statusInvalidCommand (more : List Byte)
  /-- `STATUS_DropCassetteFull`: A status body whose first byte is 0x41, with the body bytes after it, 43_response_decoder.md R203. -/
  | statusDropCassetteFull (more : List Byte)
  /-- `STATUS_DropCassetteRemoved`: A status body whose first byte is 0x42, with the body bytes after it, 43_response_decoder.md R203. -/
  | statusDropCassetteRemoved (more : List Byte)
  /-- `STATUS_JamInAcceptor`: A status body whose first byte is 0x43, with the body bytes after it, 43_response_decoder.md R203. -/
  | statusJamInAcceptor (more : List Byte)
  /-- `STATUS_JamInStacker`: A status body whose first byte is 0x44, with the body bytes after it, 43_response_decoder.md R203. -/
  | statusJamInStacker (more : List Byte)
  /-- `STATUS_Cheated`: A status body whose first byte is 0x45, with the body bytes after it, 43_response_decoder.md R203. -/
  | statusCheated (more : List Byte)
  /-- `STATUS_Escrow`: A status body whose first byte is 0x80, with the body bytes after it, 43_response_decoder.md R203. -/
  | statusEscrow (more : List Byte)
  /-- `STATUS_Packed`: A status body whose first byte is 0x81, with the body bytes after it, 43_response_decoder.md R203. -/
  | statusPacked (more : List Byte)
  /-- `STATUS_Returned`: A status body whose first byte is 0x82, with the body bytes after it, 43_response_decoder.md R203. -/
  | statusReturned (more : List Byte)
  /-- `STATUS_other`: A status body with a code `c` that has no name, 43_response_decoder.md R203. -/
  | statusOther (c : Byte) (more : List Byte)
  /-- `crc16`: `crc16(s)`, 40_frame_codec.md R110. -/
  | crc16 (bytes : List Byte)
  /-- `crc_update`: `crc_update(c, b)`, R111. -/
  | crcUpdate (c : Word16) (b : Byte)
  /-- `encode`: `encode(address, command, payload)`, R116. -/
  | encode (address command : Byte) (payload : List Byte)
  /-- `decodeResponse`: `decodeResponse(bytes, expectedAddress)`, R120. -/
  | decodeResponse (bytes : List Byte) (expectedAddress : Byte)
  /-- `classify`: `classify(bytes)`, R124. -/
  | classify (bytes : List Byte)
  /-- `encodeResponseFrame`: `encodeResponseFrame(address, data)`, R126. -/
  | encodeResponseFrame (address : Byte) (data : List Byte)
  /-- `delayBeforeRequest`: `delayBeforeRequest()`, 41_transport_governor.md R141. -/
  | delayBeforeRequest
  /-- `waitForTransmitComplete`: `waitForTransmitComplete()`, R147. -/
  | waitForTransmitComplete
  /-- `resetLink`: `resetLink()`, R149. -/
  | resetLink
  /-- `decodeStatus`: `decodeStatus(r)`, 43_response_decoder.md R203. -/
  | decodeStatus (r : Response)
  /-- `decodeBillOptions`: `decodeBillOptions(r)`, R210. -/
  | decodeBillOptions (r : Response)
  /-- `unpack24`: `unpack24(b)` of three bytes, R212. -/
  | unpack24 (b0 b1 b2 : Byte)
  /-- `decodeCassetteStatus`: `decodeCassetteStatus(r)`, R215. -/
  | decodeCassetteStatus (r : Response)
  /-- `decodeBillTable`: `decodeBillTable(r)`, R220. -/
  | decodeBillTable (r : Response)
  /-- `denom`: `denom(base, e)`, R222. -/
  | denom (base e : Byte)
  /-- `decodeInfo`: `decodeInfo(r)`, R226. -/
  | decodeInfo (r : Response)
  /-- `expectAck`: `expectAck(r)` for the command attempted, R232. -/
  | expectAck (cmd : Byte) (r : Response)
  deriving DecidableEq, Repr

end Sys2Proof
end

