-- ==== Sys2Proof/WellFormed.lean ====
section
/-! DEFINITION. Which instructions have operands that the row's encoding admits. `exec` does not ask for it: a
host may present `exchange` with any payload (42_link_protocol.md R163 says what an over-long one does); what
is checked here is that the words of the instruction exist. -/

namespace Sys2Proof

/-- Why an instruction has no encoding in its row's format. -/
inductive IllFormed
  /-- `exchange`: `LEN` is one byte, so a request frame has at most 249 payload bytes (30_encoding.md R87). -/
  | payloadTooLong
  /-- `RSP_INCREMENT_COMMAND`: byte 3 is not `INC_CMD_CODE`, or is 0x00 or 0xFF (30_encoding.md R91). -/
  | notIncrementCode
  /-- `RSP_MESSAGE_1`: the data byte is 0x00, 0xFF or `INC_CMD_CODE` (30_encoding.md R91). -/
  | notMessageByte
  /-- `RSP_MESSAGE`: the body has not 2 to 250 bytes (40_frame_codec.md R127). -/
  | messageLength
  /-- `RSP_TOO_SHORT`: the declared length is 6 or more (40_frame_codec.md R122). -/
  | lengthNotShort
  /-- `RSP_BAD_CRC`: the body has not 1 to 250 bytes (20_memory.md R51). -/
  | badCrcLength
  /-- `RSP_BAD_CRC`: the carried CRC is the right one (40_frame_codec.md R123). -/
  | crcMatches
  /-- A status row: the body would be longer than 250 bytes (20_memory.md R51). -/
  | statusTooLong
  /-- `STATUS_other`: the code has a row of its own (30_encoding.md R93). -/
  | namedStatus
  deriving DecidableEq, Repr

/-- The 26 status codes that have a name (30_encoding.md R93). -/
def namedStatusCodes : List Byte :=
  [0x10#8, 0x13#8, 0x14#8, 0x15#8, 0x17#8, 0x18#8, 0x19#8, 0x1A#8, 0x1B#8, 0x1C#8, 0x1D#8, 0x1E#8, 0x21#8,
   0x25#8, 0x26#8, 0x28#8, 0x29#8, 0x30#8, 0x41#8, 0x42#8, 0x43#8, 0x44#8, 0x45#8, 0x80#8, 0x81#8, 0x82#8]

/-- The check of a status row with `more` body bytes after the code. -/
def statusProblem (more : List Byte) : Option IllFormed :=
  if 249 < more.length then some .statusTooLong else none

/-- What is wrong with an instruction's operands, for a block whose `INC_CMD_CODE` is `inc`. -/
def problem (inc : Byte) : Instr → Option IllFormed
  | .exchange _ payload => if 249 < payload.length then some .payloadTooLong else none
  | .rspIncrementCommand _ i =>
    if i ≠ inc ∨ i = Config.ackCode ∨ i = Config.nackCode then some .notIncrementCode else none
  | .rspMessage1 _ d =>
    if d = Config.ackCode ∨ d = Config.nackCode ∨ d = inc then some .notMessageByte else none
  | .rspMessage _ body => if body.length < 2 ∨ 250 < body.length then some .messageLength else none
  | .rspTooShort _ n => if Config.minLen ≤ n.toNat then some .lengthNotShort else none
  | .rspBadCrc a body carried =>
    if body.length < 1 ∨ 250 < body.length then some .badCrcLength
    else if carried = Machine.crc16 (Machine.responseBody a body) then some .crcMatches else none
  | .statusPowerUp more => statusProblem more
  | .statusInitialize more => statusProblem more
  | .statusIdling more => statusProblem more
  | .statusAccepting more => statusProblem more
  | .statusStacking more => statusProblem more
  | .statusReturning more => statusProblem more
  | .statusDisabled more => statusProblem more
  | .statusHolding more => statusProblem more
  | .statusBusy more => statusProblem more
  | .statusRejecting more => statusProblem more
  | .statusDispensing more => statusProblem more
  | .statusUploading more => statusProblem more
  | .statusSettingTypeCassette more => statusProblem more
  | .statusDispensed more => statusProblem more
  | .statusUnloaded more => statusProblem more
  | .statusInvalidBillNumber more => statusProblem more
  | .statusSetCassetteType more => statusProblem more
  | .statusInvalidCommand more => statusProblem more
  | .statusDropCassetteFull more => statusProblem more
  | .statusDropCassetteRemoved more => statusProblem more
  | .statusJamInAcceptor more => statusProblem more
  | .statusJamInStacker more => statusProblem more
  | .statusCheated more => statusProblem more
  | .statusEscrow more => statusProblem more
  | .statusPacked more => statusProblem more
  | .statusReturned more => statusProblem more
  | .statusOther c more => if c ∈ namedStatusCodes then some .namedStatus else statusProblem more
  | .poll => none
  | .getBillOptions => none
  | .getBillTable => none
  | .info => none
  | .cassetteStatus => none
  | .stackBill => none
  | .returnBill => none
  | .resetAll => none
  | .construct _ _ _ => none
  | .reqGetStatus _ => none
  | .reqPoll _ => none
  | .reqStack _ => none
  | .reqReturn _ => none
  | .reqExtIdent _ => none
  | .reqGetBillTable _ => none
  | .reqRecCassetteStatus _ => none
  | .masterAck _ => none
  | .masterNack _ => none
  | .rspAck _ => none
  | .rspNack _ => none
  | .rspBadAddress _ => none
  | .crc16 _ => none
  | .crcUpdate _ _ => none
  | .encode _ _ _ => none
  | .decodeResponse _ _ => none
  | .classify _ => none
  | .encodeResponseFrame _ _ => none
  | .delayBeforeRequest => none
  | .waitForTransmitComplete => none
  | .resetLink => none
  | .decodeStatus _ => none
  | .decodeBillOptions _ => none
  | .unpack24 _ _ _ => none
  | .decodeCassetteStatus _ => none
  | .decodeBillTable _ => none
  | .denom _ _ => none
  | .decodeInfo _ => none
  | .expectAck _ _ => none

/-- An instruction whose operands its row's encoding admits. -/
abbrev WellFormed (inc : Byte) (i : Instr) : Prop := problem inc i = none

end Sys2Proof
end

