-- ==== Sys2Proof/Decode.lean ====
section
/-! DEFINITION. Decode, total on any bytes and rejecting by name, and the encoder, both written from the
encodings of spec/opcode_table.json and 30_encoding.md. The bits of one word belong to several rows (a request of
the host, a frame of the master, a frame of the slave, the body of a status answer); "only the direction tells
them apart" (30_encoding.md R92), so the decoder is told the row's format, the table's "format" column. -/

namespace Sys2Proof

/-- The formats of spec/opcode_table.json that have an encoding. -/
inductive Format
  /-- `HOST_OP`: an operation, as the request frame it sends. -/
  | hostOp
  /-- `REQ_VAR`: `exchange`, as the request frame it sends. -/
  | reqVar
  /-- `M6`: a six-byte frame of the master. -/
  | m6
  /-- `S6`, `SV`, `S_ILLEGAL`: bytes of the slave. -/
  | slave
  /-- `STATUS`: the body of an answer to `POLL`. -/
  | status
  deriving DecidableEq, Repr

/-- Why a byte string is no instruction of a format. -/
inductive DecodeError
  /-- No byte at all. -/
  | empty
  /-- The first byte is not `SYNC` (30_encoding.md R80). -/
  | notSync
  /-- Fewer bytes than the declared length, or than the row has. -/
  | truncated
  /-- More bytes than the declared length, or than the row has. -/
  | trailing
  /-- A declared length the format does not have (30_encoding.md R82). -/
  | badLength
  /-- A command code that no row of the format has: in `HOST_OP` any but the six that a named operation sends (0x31,
  `GET_STATUS`, has a name and no operation, 44_device_controller.md R249), in `M6` any but the nine of 30_encoding.md R89 and R90
  (R96). -/
  | unknownCommand
  /-- A frame of the master whose CRC is not the CRC of the bytes before it (30_encoding.md R83). -/
  | badCrc
  /-- A status body of more than 250 bytes (20_memory.md R51). -/
  | bodyTooLong
  deriving DecidableEq, Repr

/-- What decoding answers. -/
inductive Decoded
  | ok (i : Instr)
  | reject (e : DecodeError)
  deriving DecidableEq, Repr

/-- The operation whose request carries command byte `c` (30_encoding.md R89, R99). `getBillOptions` sends the very
frame of `poll` ("on the wire the slave cannot tell this operation from `poll`", 44_device_controller.md R242),
so no decoder can answer it: the frame reads as `poll`. -/
def hostOpOf (c : Byte) : Decoded :=
  if c = Config.cmdPoll then .ok .poll
  else if c = Config.cmdGetBillTable then .ok .getBillTable
  else if c = Config.cmdExtIdent then .ok .info
  else if c = Config.cmdRecCassetteStatus then .ok .cassetteStatus
  else if c = Config.cmdStack then .ok .stackBill
  else if c = Config.cmdReturn then .ok .returnBill
  else .reject .unknownCommand

/-- `HOST_OP` rows: six bytes, `SYNC`, any address, `LEN` 6, the code. The address and the CRC lie outside the
row's mask: they are no operands of the call, the block supplies both (44_device_controller.md R240). -/
def decodeHostOp : List Byte → Decoded
  | [] => .reject .empty
  | [b0, _, n, c, _, _] =>
    if b0 ≠ Config.sync then .reject .notSync
    else if n ≠ 6#8 then .reject .badLength
    else hostOpOf c
  | b0 :: rest =>
    if b0 ≠ Config.sync then .reject .notSync
    else if rest.length < 5 then .reject .truncated else .reject .trailing

/-- The `REQ_VAR` row: `LEN` says how many bytes there are; the payload lies at offsets 4 to `LEN-3`. Address and
CRC are no operands, as for `HOST_OP`. -/
def decodeReqVar : List Byte → Decoded
  | [] => .reject .empty
  | b0 :: rest =>
    if b0 ≠ Config.sync then .reject .notSync
    else
      match rest with
      | _ :: n :: c :: data =>
        if n.toNat < Config.minLen then .reject .badLength
        else if data.length + 4 < n.toNat then .reject .truncated
        else if n.toNat < data.length + 4 then .reject .trailing
        else .ok (.exchange c (data.take (data.length - 2)))
      | _ => .reject .truncated

/-- The `M6` row with command byte `c` to address `a` (30_encoding.md R89, R90). -/
def masterFrameOf (a c : Byte) : Decoded :=
  if c = Config.cmdGetStatus then .ok (.reqGetStatus a)
  else if c = Config.cmdPoll then .ok (.reqPoll a)
  else if c = Config.cmdStack then .ok (.reqStack a)
  else if c = Config.cmdReturn then .ok (.reqReturn a)
  else if c = Config.cmdExtIdent then .ok (.reqExtIdent a)
  else if c = Config.cmdGetBillTable then .ok (.reqGetBillTable a)
  else if c = Config.cmdRecCassetteStatus then .ok (.reqRecCassetteStatus a)
  else if c = Config.ackCode then .ok (.masterAck a)
  else if c = Config.nackCode then .ok (.masterNack a)
  else .reject .unknownCommand

/-- `M6` rows: six bytes, with the CRC of the four before it. -/
def decodeM6 : List Byte → Decoded
  | [] => .reject .empty
  | [b0, a, n, c, lo, hi] =>
    if b0 ≠ Config.sync then .reject .notSync
    else if n ≠ 6#8 then .reject .badLength
    else if Machine.crc16 [b0, a, n, c] ≠ le16 lo hi then .reject .badCrc
    else masterFrameOf a c
  | b0 :: rest =>
    if b0 ≠ Config.sync then .reject .notSync
    else if rest.length < 5 then .reject .truncated else .reject .trailing

/-- The legal slave frame with message body `body` from address `a`: "the tests are made in that order and the
first that holds wins" (30_encoding.md R91). -/
def slaveFrameOf (inc a : Byte) (body : List Byte) : Instr :=
  match body with
  | [d] =>
    if d = Config.ackCode then .rspAck a
    else if d = Config.nackCode then .rspNack a
    else if d = inc then .rspIncrementCommand a d
    else .rspMessage1 a d
  | _ => .rspMessage a body

/-- `S6`, `SV` and `S_ILLEGAL` rows. Two bytes alone are `RSP_BAD_ADDRESS`, three bytes with a declared length
below 6 are `RSP_TOO_SHORT` (the receiver reads no further, 42_link_protocol.md R170, R171); a whole frame is
`RSP_BAD_CRC` or one of the five legal classes. -/
def decodeSlave (inc : Byte) : List Byte → Decoded
  | [] => .reject .empty
  | b0 :: rest =>
    if b0 ≠ Config.sync then .reject .notSync
    else
      match rest with
      | [] => .reject .truncated
      | [x] => .ok (.rspBadAddress x)
      | a :: n :: data =>
        if n.toNat < Config.minLen then
          if data = [] then .ok (.rspTooShort a n) else .reject .trailing
        else if data.length + 3 < n.toNat then .reject .truncated
        else if n.toNat < data.length + 3 then .reject .trailing
        else
          let frame := b0 :: a :: n :: data
          if Machine.crc16 (Machine.protectedPart frame) ≠ Machine.carriedCrc frame then
            .ok (.rspBadCrc a (Machine.messageBody frame) (Machine.carriedCrc frame))
          else .ok (slaveFrameOf inc a (Machine.messageBody frame))

/-- The status row of code `c`, with the body bytes after the code (30_encoding.md R93). -/
def statusRowOf (c : Byte) (more : List Byte) : Instr :=
  if c = 0x10#8 then .statusPowerUp more
  else if c = 0x13#8 then .statusInitialize more
  else if c = 0x14#8 then .statusIdling more
  else if c = 0x15#8 then .statusAccepting more
  else if c = 0x17#8 then .statusStacking more
  else if c = 0x18#8 then .statusReturning more
  else if c = 0x19#8 then .statusDisabled more
  else if c = 0x1A#8 then .statusHolding more
  else if c = 0x1B#8 then .statusBusy more
  else if c = 0x1C#8 then .statusRejecting more
  else if c = 0x1D#8 then .statusDispensing more
  else if c = 0x1E#8 then .statusUploading more
  else if c = 0x21#8 then .statusSettingTypeCassette more
  else if c = 0x25#8 then .statusDispensed more
  else if c = 0x26#8 then .statusUnloaded more
  else if c = 0x28#8 then .statusInvalidBillNumber more
  else if c = 0x29#8 then .statusSetCassetteType more
  else if c = 0x30#8 then .statusInvalidCommand more
  else if c = 0x41#8 then .statusDropCassetteFull more
  else if c = 0x42#8 then .statusDropCassetteRemoved more
  else if c = 0x43#8 then .statusJamInAcceptor more
  else if c = 0x44#8 then .statusJamInStacker more
  else if c = 0x45#8 then .statusCheated more
  else if c = 0x80#8 then .statusEscrow more
  else if c = 0x81#8 then .statusPacked more
  else if c = 0x82#8 then .statusReturned more
  else .statusOther c more

/-- `STATUS` rows: the first body byte selects the row. -/
def decodeStatusBody : List Byte → Decoded
  | [] => .reject .empty
  | c :: more => if 249 < more.length then .reject .bodyTooLong else .ok (statusRowOf c more)

/-- The instruction that the bytes are in a format, for a block whose `INC_CMD_CODE` is `inc`. -/
def decode (inc : Byte) (f : Format) (bytes : List Byte) : Decoded :=
  match f with
  | .hostOp => decodeHostOp bytes
  | .reqVar => decodeReqVar bytes
  | .m6 => decodeM6 bytes
  | .slave => decodeSlave inc bytes
  | .status => decodeStatusBody bytes

/-- The words of an instruction, in its row's format, for a block of address `addr` (30_encoding.md R81, R87;
40_frame_codec.md R126). `none` for a row whose encoding is null in spec/opcode_table.json: `resetAll` and
`construct` send no frame, a unit function has "no wire encoding of its own". -/
def encode (addr : Byte) : Instr → Option (Format × List Byte)
  | .poll => some (.hostOp, Machine.requestFrame addr Config.cmdPoll [])
  | .getBillOptions => some (.hostOp, Machine.requestFrame addr Config.cmdPoll [])
  | .getBillTable => some (.hostOp, Machine.requestFrame addr Config.cmdGetBillTable [])
  | .info => some (.hostOp, Machine.requestFrame addr Config.cmdExtIdent [])
  | .cassetteStatus => some (.hostOp, Machine.requestFrame addr Config.cmdRecCassetteStatus [])
  | .stackBill => some (.hostOp, Machine.requestFrame addr Config.cmdStack [])
  | .returnBill => some (.hostOp, Machine.requestFrame addr Config.cmdReturn [])
  | .resetAll => none
  | .construct _ _ _ => none
  | .exchange cmd payload => some (.reqVar, Machine.requestFrame addr cmd payload)
  | .reqGetStatus a => some (.m6, Machine.requestFrame a Config.cmdGetStatus [])
  | .reqPoll a => some (.m6, Machine.requestFrame a Config.cmdPoll [])
  | .reqStack a => some (.m6, Machine.requestFrame a Config.cmdStack [])
  | .reqReturn a => some (.m6, Machine.requestFrame a Config.cmdReturn [])
  | .reqExtIdent a => some (.m6, Machine.requestFrame a Config.cmdExtIdent [])
  | .reqGetBillTable a => some (.m6, Machine.requestFrame a Config.cmdGetBillTable [])
  | .reqRecCassetteStatus a => some (.m6, Machine.requestFrame a Config.cmdRecCassetteStatus [])
  | .masterAck a => some (.m6, Machine.requestFrame a Config.ackCode [])
  | .masterNack a => some (.m6, Machine.requestFrame a Config.nackCode [])
  | .rspAck a => some (.slave, Machine.responseFrame a [Config.ackCode])
  | .rspNack a => some (.slave, Machine.responseFrame a [Config.nackCode])
  | .rspIncrementCommand a i => some (.slave, Machine.responseFrame a [i])
  | .rspMessage1 a d => some (.slave, Machine.responseFrame a [d])
  | .rspMessage a body => some (.slave, Machine.responseFrame a body)
  | .rspBadAddress x => some (.slave, [Config.sync, x])
  | .rspTooShort a n => some (.slave, [Config.sync, a, n])
  | .rspBadCrc a body carried => some (.slave, Machine.responseFrameCarrying a body carried)
  | .statusPowerUp more => some (.status, 0x10#8 :: more)
  | .statusInitialize more => some (.status, 0x13#8 :: more)
  | .statusIdling more => some (.status, 0x14#8 :: more)
  | .statusAccepting more => some (.status, 0x15#8 :: more)
  | .statusStacking more => some (.status, 0x17#8 :: more)
  | .statusReturning more => some (.status, 0x18#8 :: more)
  | .statusDisabled more => some (.status, 0x19#8 :: more)
  | .statusHolding more => some (.status, 0x1A#8 :: more)
  | .statusBusy more => some (.status, 0x1B#8 :: more)
  | .statusRejecting more => some (.status, 0x1C#8 :: more)
  | .statusDispensing more => some (.status, 0x1D#8 :: more)
  | .statusUploading more => some (.status, 0x1E#8 :: more)
  | .statusSettingTypeCassette more => some (.status, 0x21#8 :: more)
  | .statusDispensed more => some (.status, 0x25#8 :: more)
  | .statusUnloaded more => some (.status, 0x26#8 :: more)
  | .statusInvalidBillNumber more => some (.status, 0x28#8 :: more)
  | .statusSetCassetteType more => some (.status, 0x29#8 :: more)
  | .statusInvalidCommand more => some (.status, 0x30#8 :: more)
  | .statusDropCassetteFull more => some (.status, 0x41#8 :: more)
  | .statusDropCassetteRemoved more => some (.status, 0x42#8 :: more)
  | .statusJamInAcceptor more => some (.status, 0x43#8 :: more)
  | .statusJamInStacker more => some (.status, 0x44#8 :: more)
  | .statusCheated more => some (.status, 0x45#8 :: more)
  | .statusEscrow more => some (.status, 0x80#8 :: more)
  | .statusPacked more => some (.status, 0x81#8 :: more)
  | .statusReturned more => some (.status, 0x82#8 :: more)
  | .statusOther c more => some (.status, c :: more)
  | .crc16 _ => none
  | .crcUpdate _ _ => none
  | .encode _ _ _ => none
  | .decodeResponse _ _ => none
  | .classify _ => none
  | .encodeResponseFrame _ _ => none
  | .delayBeforeRequest => none
  | .waitForTransmitComplete => none
  | .resetLink => none
  | .decodeStatus _ => none
  | .decodeBillOptions _ => none
  | .unpack24 _ _ _ => none
  | .decodeCassetteStatus _ => none
  | .decodeBillTable _ => none
  | .denom _ _ => none
  | .decodeInfo _ => none
  | .expectAck _ _ => none

/-- The format in which the host's interface reads a word of `nbits` bits (the widths of the table's rows: 8
`STATUS`, 16 and 24 the slave's, 32 `REQ_VAR`, 48 a six-byte frame). A six-byte word fits rows of several
formats: a code that a named operation sends is read as that operation, the other codes of the master as its
frame, any other as a frame of the slave. -/
def tableFormat (nbits w : Nat) : Format :=
  if nbits ≤ 8 then .status
  else if nbits ≤ 24 then .slave
  else if nbits ≤ 32 then .reqVar
  else
    let c : Byte := BitVec.ofNat 8 (w / 65536)
    if c = Config.cmdPoll ∨ c = Config.cmdGetBillTable ∨ c = Config.cmdExtIdent ∨ c = Config.cmdRecCassetteStatus
      ∨ c = Config.cmdStack ∨ c = Config.cmdReturn then .hostOp
    else if c = Config.cmdGetStatus ∨ c = Config.ackCode ∨ c = Config.nackCode then .m6
    else .slave

/-- The `n` bytes of a word as the table writes it, most significant byte first: "match/mask are over the first
four bytes (32 bits, byte 0 most significant)". -/
def wordBytes : Nat → Nat → List Byte
  | 0, _ => []
  | n + 1, w => BitVec.ofNat 8 (w / 256 ^ n) :: wordBytes n w

/-- The bytes of an instruction of which the table gives the first `nbits` bits, the rest of the instruction zero:
the rest of a frame is what a legal `LEN` byte says, and the operand byte of `STATUS_Rejecting` and `STATUS_Escrow`. -/
def tableBytes (nbits w : Nat) : List Byte :=
  let bs := wordBytes (nbits / 8) w
  let len : Nat :=
    match tableFormat nbits w with
    | .status => if bs = [0x1C#8] ∨ bs = [0x80#8] then 2 else 1
    | .slave | .reqVar => if 24 ≤ nbits ∧ 6 ≤ (bs.getD 2 0).toNat then (bs.getD 2 0).toNat else 2
    | .hostOp | .m6 => 6
  bs ++ List.replicate (len - bs.length) 0#8

/-- The instruction the decoder reads from an instruction whose bits are `w` (numbered as spec/opcode_table.json
numbers them), with the default `INC_CMD_CODE`. -/
def decodeTableWord (nbits w : Nat) : Option Instr :=
  match decode Params.default.incCmdCode (tableFormat nbits w) (tableBytes nbits w) with
  | .ok i => some i
  | .reject _ => none

end Sys2Proof
end

