-- ==== Sys2Proof/Machine/State.lean ====
section
/-! DEFINITION. The state of the machine, as plain data: the sixteen registers of the block (10_state.md rule
R21), what its rules imply beside them, the transport under it (20_memory.md section 3), and the environment's
inputs (10_state.md R20, R37), which the step reads and nothing constrains. INVENTORY.md lists every field with
its rule and its reset value. -/

namespace Sys2Proof.Machine

/-! ## Results and errors -/

/-- The status of the device (43_response_decoder.md R204). -/
inductive Status
  | powerUp
  /-- `Initialize`. -/
  | initializing
  | idling
  | disabled
  | holding
  /-- `reason` is the second body byte, or absent (R205). -/
  | rejecting (reason : Option Byte)
  | dispensing
  | cassetteFull
  | cassetteRemoved
  | escrow (billType : Byte)
  | other (rawCode : Byte)
  deriving DecidableEq, Repr

/-- `BillOptions` (43_response_decoder.md R210): three lists of 24 booleans. -/
structure BillOptions where
  acceptable : List Bool
  security : List Bool
  routing : List Bool
  deriving DecidableEq, Repr

/-- `CassetteStatus` (43_response_decoder.md R215). -/
structure CassetteStatus where
  present : Bool
  full : Bool
  billCount : Byte
  deriving DecidableEq, Repr

/-- A denomination, the exact decimal `base * 10^exponent` or `base / 10^exponent`: "a hardware decoder outputs
the triple (`base`, `s`, `x`)" (43_response_decoder.md R222, R223). -/
structure Denomination where
  base : Byte
  /-- `s = e[7]`: divide. -/
  divide : Bool
  /-- `x = e[6:0]`. -/
  exponent : BitVec 7
  deriving DecidableEq, Repr

/-- `BillDescription` (43_response_decoder.md R220, R221); the three country-code bytes are passed through. -/
structure BillDescription where
  denomination : Denomination
  countryCode : List Byte
  deriving DecidableEq, Repr

/-- The value of a field of an identification record (43_response_decoder.md R228, R229). -/
inductive InfoValue
  /-- The asset number, most significant byte first. -/
  | number (n : Nat)
  /-- A text field, as the bytes of its UTF-8 text. -/
  | text (bytes : List Byte)
  deriving DecidableEq, Repr

/-- An identification record (43_response_decoder.md R226, R227): the 109 bytes, and the fields of
`INFO_LAYOUT` where a layout is given. -/
structure Info where
  raw : List Byte
  fields : List (InfoName × InfoValue)
  deriving DecidableEq, Repr

/-- What an operation returns on success (10_state.md R35). -/
inductive Value
  | unit
  | response (r : Response)
  | status (v : Status)
  | billOptions (v : BillOptions)
  | billTable (v : List BillDescription)
  | info (v : Info)
  | cassettes (v : List CassetteStatus)
  deriving DecidableEq, Repr

/-- The fourteen errors, with the information each records (60_exceptions.md R262). -/
inductive Err
  | openFailure
  | writeFailure
  | readTimeout
  /-- The payload's length. -/
  | payloadTooLarge (length : Nat)
  /-- The byte received. -/
  | addressMismatch (received : Byte)
  /-- The declared length (of `decodeResponse` on too few bytes, their number: 40_frame_codec.md R125). -/
  | frameTooShort (length : Nat)
  | integrityError (computed carried : Word16)
  | nackReceived (cmd : Byte)
  | incrementCommandReceived (cmd : Byte)
  | unexpectedMessage (cmd : Byte) (body : List Byte)
  | unexpectedResponse (cmd : Byte)
  | emptyStatus
  | missingBillType
  /-- The length found, and the one length required where there is one (43_response_decoder.md R210, R226). -/
  | unexpectedLength (found : Nat) (required : Option Nat)
  deriving DecidableEq, Repr

/-- The outcome of an operation, `Err(e)` or `Ok(v)` (10_state.md R35). -/
inductive Result
  | ok (v : Value)
  | err (e : Err)
  deriving DecidableEq, Repr

/-- What a unit's function returns to its caller. Not a register of the spec: the model's own (log 9). -/
inductive RetVal
  /-- `delayBeforeRequest` or `waitForTransmitComplete` has returned. -/
  | unit
  /-- It has not yet: the condition it polls was observed false. -/
  | waiting
  | word (v : Word16)
  | bytes (v : List Byte)
  | bits (v : List Bool)
  | denomination (v : Denomination)
  | response (v : Response)
  | outcome (r : Result)
  deriving DecidableEq, Repr

/-! ## The block -/

/-- The eight values of the register `state` (10_state.md R26). -/
inductive Phase
  | idle
  | delay
  | sending
  | waitingEcho
  | receivingFrame
  | ackSent
  | nackSent
  | breaking
  deriving DecidableEq, Repr

/-- The operation the host issued: the response decoders "dispatch on the operation that was issued" (10_state.md
R33, 43_response_decoder.md R200), which the command byte alone does not tell (`poll` and `getBillOptions`). -/
inductive Op
  | exchange
  | poll
  | getBillOptions
  | getBillTable
  | info
  | cassetteStatus
  | stackBill
  | returnBill
  | resetAll
  deriving DecidableEq, Repr

/-- The line settings that `T.open` takes (20_memory.md R56). Parity and flow control have the one value "none". -/
inductive Parity
  | none
  deriving DecidableEq, Repr

/-- Flow control of the line (20_memory.md R56). -/
inductive FlowControl
  | none
  deriving DecidableEq, Repr

/-- The arguments of `T.open` (20_memory.md R56). -/
structure OpenArgs where
  path : String
  /-- The line rate, 9600 or 19200. -/
  rate : Nat
  parity : Parity
  flow : FlowControl
  readTimeout : Nat
  deriving DecidableEq, Repr

/-- A frame buffer (20_memory.md R50, R52): (offset, byte) pairs, strictly rising, none equal to what an
unlisted offset reads as. -/
abbrev Memory := List Host.Cell

/-- What an offset reads as that the buffer does not list. DESIGN CHOICE: the spec calls the contents after reset
unspecified (70_reset_and_hazards.md R301). Assumption log 1. -/
abbrev Memory.blank : Byte := 0x00#8

/-! ## The environment -/

/-- One move of the environment or one turn of the block (10_state.md R20, 00_scope.md R10). The list of moves to
come is an input: nothing constrains it. Assumption log 5. -/
inductive Move
  /-- An operation, frame or unit function is presented with its operands (the host interface is "call and return",
  10_state.md R40). -/
  | present (i : Instr)
  /-- The same, as the bytes of its encoding in a format: the step decodes them. -/
  | wire (f : Format) (bytes : List Byte)
  /-- Time passes. -/
  | advance (ms : Nat)
  /-- The transport puts up to `n` bytes of its output queue on the line. -/
  | drain (n : Nat)
  /-- Bytes arrive from the line, whether or not they are a frame. -/
  | arrive (bytes : List Byte)
  /-- The block takes its own next step. -/
  | observe
  deriving DecidableEq, Repr

/-! ## The state -/

structure State where
  /-- x[0] `ADDR` (R22). -/
  addr : Byte
  /-- x[1] `BAUD`. -/
  baud : Baud
  /-- x[2] `opened`: the block exists (R41). -/
  opened : Bool
  /-- x[3] `last_req`, ms (R23, R24). -/
  lastReq : Nat
  /-- x[4] `state` (R26). -/
  phase : Phase
  /-- x[5] `txbuf` (R29). -/
  txbuf : Memory
  /-- x[6] `tx_len` (R29). -/
  txLen : Nat
  /-- x[7] `rxbuf` (R30). -/
  rxbuf : Memory
  /-- x[8] `rx_count` (R27, R30): 0 in every state but `ReceivingFrame`, and but `Idle`, where R21 leaves it unconstrained (log 8). -/
  rxCount : Nat
  /-- x[9] `rx_len` (R30). -/
  rxLen : Byte
  /-- x[10] `crc` (R31). -/
  crc : Word16
  /-- x[11] `rx_deadline`, ms (R32). -/
  rxDeadline : Nat
  /-- x[12] `break_until`, ms (R32). -/
  breakUntil : Nat
  /-- x[13] `cur_cmd` (R33). -/
  curCmd : Byte
  /-- x[14] `pend_err` (R34). -/
  pendErr : Option Err
  /-- x[15] `res` (R34, R35). -/
  res : Option Result
  /-- The operation in flight, that the decoders dispatch on (R33). -/
  curOp : Op
  /-- The payload operand of the exchange in flight, held until the frame is encoded (42_link_protocol.md R160, R163). -/
  curPayload : List Byte
  /-- `m`, where the exchange in flight has classified its response as `Message(m)`: the copy of `rxbuf[3 .. rx_len-2]` (R35,
  42_link_protocol.md R174), held while the ACK drains (R178). -/
  message : List Byte
  /-- The parameters of 00_scope.md R6 and R8, fixed before construction. -/
  params : Params
  /-- The transport: what it was opened with (20_memory.md R56). -/
  port : Option OpenArgs
  /-- The transport's output queue, seen as a count by `T.pending()` (10_state.md R36). -/
  outQueue : List Byte
  /-- The transport's input queue (10_state.md R36). -/
  inQueue : List Byte
  /-- The bytes the transport has put on the line, oldest first (20_memory.md R57). -/
  line : List Byte
  /-- The break condition (10_state.md R36). -/
  breakOn : Bool
  /-- `now`, ms (00_scope.md R9). -/
  now : Nat
  /-- Input: whether `T.open` succeeds (20_memory.md R56). -/
  openOk : Bool
  /-- Input: how the coming `T.writeAll` calls end, one entry a call, success when the list is out. `some k`: the call
  fails, and the first `k` bytes had been queued (20_memory.md R57, 93_implementation_defined.md U6). -/
  writeFaults : List (Option Nat)
  /-- Input: the moves to come. -/
  script : List Move
  /-- The model's: what the last unit function returned. -/
  ret : Option RetVal
  /-- The model's: how many ties of 41_transport_governor.md R153 have been decided. -/
  ties : Nat
  /-- The model's: how many operations have ended, the counter of the free value `Config.idleRxCount` (R21). -/
  ended : Nat
  deriving DecidableEq, Repr

/-- Why the machine stops. Each is a case the spec gives no transition (93_implementation_defined.md calls such a case
`stuck`). -/
inductive Fault
  /-- An operation is presented to a block that was not constructed (10_state.md R41, 60_exceptions.md R280). Raised by
  every operation that needs the block. Safe: the spec gives no step. -/
  | noBlock
  /-- `construct` is presented to a constructed block: it is "the one operation legal before the block exists"
  (10_state.md R41), and there is "no way to bring a constructed block back to its start state"
  (70_reset_and_hazards.md R300). Safe. -/
  | alreadyConstructed
  /-- An operation is presented while `state` is not `Idle` (10_state.md R43, 93_implementation_defined.md U8: `stuck`,
  "a model must not invent a busy error"). Raised by the host operations, by `resetLink`, and, by the model's choice, by `encode`
  and the status rows presented by themselves (assumption log 16, 19). Safe. -/
  | callWhileBusy
  /-- The row is a frame or a governor function that the block does not send or call in its present state: "No other
  transition exists" (42_link_protocol.md R180). Raised by the `REQ_*`, `MASTER_*` and `delayBeforeRequest` rows and by
  the receive step in a state no run reaches. Safe. -/
  | noTransition
  deriving DecidableEq, Repr

/-- Why the machine refuses an instruction. -/
inductive Refusal
  /-- No meaning yet; raised by `exec`'s arms only. Safe. -/
  | notModelled (mnemonic : String)
  /-- A payload of exactly 250 bytes has no frame: "The spec gives this case no meaning: a model refuses it"
  (40_frame_codec.md R117, 93_implementation_defined.md U1). Raised when such a request is encoded. Safe. -/
  | payload250
  /-- `encodeResponseFrame` of a body it is not defined for: "defined for `1 <= len(data) <= 250`"
  (40_frame_codec.md R126). Safe. -/
  | responseBodyLength
  /-- `classify` of fewer than six bytes: "called only on a frame that passed rules R121 to R123"
  (40_frame_codec.md R124). Safe. -/
  | notAFrame
  /-- The bytes presented are no instruction of the format, with the decoder's reason. Raised by the step. Safe. -/
  | undecodable (e : DecodeError)
  deriving DecidableEq, Repr

/-- What a step or a meaning answers. -/
abbrev Out := Host.Outcome State Fault Refusal

/-- The machine right after reset, which is construction (70_reset_and_hazards.md R300, R301). `ADDR`, `BAUD` and the
time are the environment's: zero, `Slow` and zero here (assumption log 3); the registers R301 calls unspecified hold
zero (log 1); the queues and the inputs are empty (log 4, 5). -/
def State.reset : State where
  addr := 0x00#8
  baud := .slow
  opened := true
  lastReq := 0
  phase := .idle
  txbuf := []
  txLen := 0
  rxbuf := []
  rxCount := 0
  rxLen := 0x00#8
  crc := 0x0000#16
  rxDeadline := 0
  breakUntil := 0
  curCmd := 0x00#8
  pendErr := none
  res := none
  curOp := .exchange
  curPayload := []
  message := []
  params := Params.default
  port := some { path := "", rate := Baud.slow.rate, parity := .none, flow := .none, readTimeout := Config.tRead }
  outQueue := []
  inQueue := []
  line := []
  breakOn := false
  now := 0
  openOk := true
  writeFaults := []
  script := []
  ret := none
  ties := 0
  ended := 0

end Sys2Proof.Machine
end

