-- ==== Sys2Proof/Machine/Ops.lean ====
section
/-! DEFINITION. The named operations: on the frame buffers (20_memory.md R50, R52), on the registers, on the
transport (20_memory.md section 3), and taking an error and returning from an operation (60_exceptions.md sections 1,
5, 6). Every meaning is built from these. -/

namespace Sys2Proof.Machine

/-! ## Frame buffers -/

/-- `MemRead(RX:off, 1)`: the byte at an offset. -/
def Memory.read : Memory → Nat → Byte
  | [], _ => Memory.blank
  | (k, v) :: m, a => if k = a then v else Memory.read m a

/-- `MemWrite(RX:off, 1, b)`: store a byte; writing what an unlisted offset reads as removes the entry. -/
def Memory.write : Memory → Nat → Byte → Memory
  | [], a, b => if b = Memory.blank then [] else [(a, b)]
  | (k, v) :: m, a, b =>
    if a < k then (if b = Memory.blank then (k, v) :: m else (a, b) :: (k, v) :: m)
    else if a = k then (if b = Memory.blank then m else (a, b) :: m)
    else (k, v) :: Memory.write m a b

/-- `MemRead(RX:off, n)`: the `n` bytes at offsets `off .. off+n-1`, as a list. -/
def Memory.readBytes (m : Memory) : Nat → Nat → List Byte
  | _, 0 => []
  | off, n + 1 => m.read off :: Memory.readBytes m (off + 1) n

/-- `MemWrite(TX:off, n, v)`: store a byte list from an offset upward. -/
def Memory.writeBytes (m : Memory) : Nat → List Byte → Memory
  | _, [] => m
  | off, b :: bs => Memory.writeBytes (m.write off b) (off + 1) bs

/-- The canonical form of a frame buffer: offsets strictly rising, within the 255 bytes (20_memory.md R50), and no
entry equal to what an unlisted offset reads as. -/
abbrev Memory.wf (m : Memory) : Prop :=
  m.Pairwise (fun x y => x.1 < y.1) ∧ ∀ c ∈ m, c.2 ≠ Memory.blank ∧ c.1 < Config.maxFrame

/-! ## Register updates -/

/-- `state <- p`. -/
def State.setPhase (s : State) (p : Phase) : State := { s with phase := p }

/-- `res <- r`. -/
def State.setRes (s : State) (r : Result) : State := { s with res := some r }

/-- A unit function returns `v` to its caller. -/
def State.setRet (s : State) (v : RetVal) : State := { s with ret := some v }

/-- `pend_err <- e`. -/
def State.setPendErr (s : State) (e : Err) : State := { s with pendErr := some e }

/-- `txbuf <- f; tx_len <- len(f)` (42_link_protocol.md R163, R176, R177). -/
def State.loadTx (s : State) (f : List Byte) : State :=
  { s with txbuf := s.txbuf.writeBytes 0 f, txLen := f.length }

/-- `MemWrite(RX:rx_count, 1, b); rx_count <- rx_count + 1` (42_link_protocol.md R168 to R172). -/
def State.storeRx (s : State) (b : Byte) : State :=
  { s with rxbuf := s.rxbuf.write s.rxCount b, rxCount := s.rxCount + 1 }

/-- `crc <- crc_update(crc, b)`. -/
def State.runCrc (s : State) (b : Byte) : State := { s with crc := crcUpdate s.crc b }

/-- The received frame `rxbuf[0 .. rx_len]`. -/
def State.rxFrame (s : State) : List Byte := s.rxbuf.readBytes 0 s.rxLen.toNat

/-- The frame being sent, `txbuf[0 .. tx_len]`. -/
def State.txFrame (s : State) : List Byte := s.txbuf.readBytes 0 s.txLen

/-! ## The transport -/

/-- `T.open(PATH, BAUD, parity = none, flow = none, readTimeout = 2000 ms)` (20_memory.md R56): whether it succeeds, and
the state after. -/
def State.openPort (s : State) (path : String) (baud : Baud) : Bool × State :=
  if s.openOk then
    (true, { s with port := some { path := path, rate := baud.rate, parity := .none, flow := .none
                                   readTimeout := Config.tRead } })
  else (false, s)

/-- `T.writeAll(bytes)` (20_memory.md R57): whether it succeeds, and the state after. A failed call has queued a prefix
of the bytes, how long is an input (93_implementation_defined.md U6). -/
def State.writeAll (s : State) (bytes : List Byte) : Bool × State :=
  match s.writeFaults with
  | [] => (true, { s with outQueue := s.outQueue ++ bytes })
  | none :: rest => (true, { s with outQueue := s.outQueue ++ bytes, writeFaults := rest })
  | some k :: rest => (false, { s with outQueue := s.outQueue ++ bytes.take k, writeFaults := rest })

/-- `T.pending()` (20_memory.md R59): the number of bytes written and not yet sent. -/
def State.pending (s : State) : Nat := s.outQueue.length

/-- `T.clearInput()` (20_memory.md R60). -/
def State.clearInput (s : State) : State := { s with inQueue := [] }

/-- `T.assertBreak()` (20_memory.md R61). -/
def State.assertBreak (s : State) : State := { s with breakOn := true }

/-- `T.clearBreak()` (20_memory.md R61). -/
def State.clearBreak (s : State) : State := { s with breakOn := false }

/-- What `T.readByte(rx_deadline)` answers at the present time (41_transport_governor.md R153). -/
inductive ReadAnswer
  | byte (b : Byte)
  | timeout
  /-- No byte is available and the deadline has not passed: the block waits. -/
  | notYet
  deriving DecidableEq, Repr

/-- The oldest byte leaves the input queue. The next read is called at once: with `RX_TIMEOUT_SCOPE = per_byte` its
deadline is counted from now (41_transport_governor.md R152). R152 names no register for a deadline "taken at the time of the
call", and 10_state.md R21 has `rx_deadline` written at the start of the receive phase: that the register `rx_deadline` holds
it, rewritten at every byte read, is the model's. DESIGN CHOICE, assumption log 24. -/
def State.takeInput (s : State) (rest : List Byte) : State :=
  { s with
    inQueue := rest
    rxDeadline := match s.params.rxTimeoutScope with
      | .wholeReceive => s.rxDeadline
      | .perByte => s.now + Config.tRead }

/-- `T.readByte(rx_deadline)` (20_memory.md R58, 41_transport_governor.md R152, R153): the answer and the state after.
A byte available with the deadline passed is a tie, decided by the free value. -/
def State.readByte (s : State) : ReadAnswer × State :=
  match s.inQueue with
  | [] => if s.rxDeadline ≤ s.now then (.timeout, s) else (.notYet, s)
  | b :: rest =>
    if s.rxDeadline ≤ s.now then
      let s' : State := { s with ties := s.ties + 1 }
      if Config.tieTakesByte s.ties then (.byte b, s'.takeInput rest) else (.timeout, s')
    else (.byte b, s.takeInput rest)

/-- Bytes arrive from the line: they join the input queue of an open transport (10_state.md R36, 60_exceptions.md R265);
before `T.open` nobody keeps them (70_reset_and_hazards.md R301). -/
def State.deliver (s : State) (bytes : List Byte) : State :=
  if s.opened then { s with inQueue := s.inQueue ++ bytes } else s

/-- The transport puts up to `n` bytes of its output queue on the line, in order (20_memory.md R57). -/
def State.drain (s : State) (n : Nat) : State :=
  { s with outQueue := s.outQueue.drop n, line := s.line ++ s.outQueue.take n }

/-- Time passes (00_scope.md R9: `now` never decreases). -/
def State.advance (s : State) (ms : Nat) : State := { s with now := s.now + ms }

/-! ## Taking an error, and returning (60_exceptions.md R260, R270, R280) -/

/-- What `rx_count` holds once the operation that runs now has ended: unconstrained (10_state.md R21), the free value of
assumption log 8. -/
abbrev State.idleRxCount (s : State) : Nat := (Config.idleRxCount s.ended).toNat

/-- The end of an operation (10_state.md R46): `state <- Idle`, the result in `res`. `rx_count` is dead from here on (R21). -/
def State.finish (s : State) (r : Result) : State :=
  { (s.setPhase .idle).setRes r with rxCount := s.idleRxCount, ended := s.ended + 1 }

/-- The frame that answers a receive has been written (42_link_protocol.md R178): `state` becomes `AckSent` or `NackSent`, and with
`ReceivingFrame` left `rx_count` is 0 (10_state.md R27). -/
def State.answered (s : State) (p : Phase) : State := { s.setPhase p with rxCount := 0 }

/-- `raise E(info)` (R260): the operation stops, `state` becomes `Idle`, `Err(E(info))` is returned. "There is no handler,
no vector and no saved context." -/
def State.raise (s : State) (e : Err) : State := s.finish (.err e)

/-- `return Ok(v)`: the return from an operation. There is no return-from-trap operation (R280). -/
def State.returnOk (s : State) (v : Value) : State := s.finish (.ok v)

/-- The NACK frame of the block (42_link_protocol.md R177). -/
def State.nackFrame (s : State) : List Byte := requestFrame s.addr Config.nackCode []

/-- The ACK frame of the block (42_link_protocol.md R176). -/
def State.ackFrame (s : State) : List Byte := requestFrame s.addr Config.ackCode []

/-- Build a frame into `txbuf` and hand it to the transport whole, by one `T.writeAll(txbuf[0 .. tx_len])` (10_state.md
R29): whether the write succeeds, and the state after. -/
def State.sendFrame (s : State) (f : List Byte) : Bool × State :=
  let s := s.loadTx f
  s.writeAll s.txFrame

/-- Send the NACK for the error that `e` is (42_link_protocol.md R175, R177): no spacing delay, no stamp. Written:
`state <- NackSent`. Not written: the original error is surfaced and the write failure dropped (60_exceptions.md R281). -/
def State.sendNack (s : State) (e : Err) : State :=
  match s.sendFrame s.nackFrame with
  | (true, s') => s'.answered .nackSent
  | (false, s') => s'.raise e

/-- `fail_rx(e)` (42_link_protocol.md R175): TAKING AN ERROR of steps 3 and 4. A read timeout with `NACK_ON_TIMEOUT` false
returns at once; every other failure is kept in `pend_err` while a NACK goes out. -/
def State.failRx (s : State) (e : Err) : State :=
  if e = .readTimeout ∧ s.params.nackOnTimeout = false then s.raise e
  else (s.setPendErr e).sendNack e

/-- Send the ACK for `Message(m)` (42_link_protocol.md R174, R176, R178). Written: `state <- AckSent`, and `m` is held until the drain:
with `rx_count` 0 (10_state.md R27) no rule reads `rxbuf` any more (20_memory.md R73). Not written: `WriteFailure` in place of the
message. -/
def State.sendAck (s : State) (m : List Byte) : State :=
  match s.sendFrame s.ackFrame with
  | (true, s') => { s'.answered .ackSent with message := m }
  | (false, s') => s'.raise .writeFailure

end Sys2Proof.Machine
end

