-- ==== Sys2Proof/Machine/Flags.lean ====
section
/-! DEFINITION. "The block has no condition codes. What stands in their place is the outcome of the last operation"
(10_state.md R34): the class and the numeric code of an error (60_exceptions.md R261, R262). -/

namespace Sys2Proof.Machine

/-- The five classes of errors (60_exceptions.md R261). -/
inductive ErrClass
  | transport
  | encode
  | frame
  | protocol
  | decode
  deriving DecidableEq, Repr

/-- The class of an error (60_exceptions.md R262). -/
def Err.errClass : Err → ErrClass
  | .openFailure => .transport
  | .writeFailure => .transport
  | .readTimeout => .transport
  | .payloadTooLarge _ => .encode
  | .addressMismatch _ => .frame
  | .frameTooShort _ => .frame
  | .integrityError _ _ => .frame
  | .nackReceived _ => .protocol
  | .incrementCommandReceived _ => .protocol
  | .unexpectedMessage _ _ => .protocol
  | .unexpectedResponse _ => .protocol
  | .emptyStatus => .decode
  | .missingBillType => .decode
  | .unexpectedLength _ _ => .decode

/-- The numeric code of an error (60_exceptions.md R262). -/
def Err.code : Err → Byte
  | .openFailure => 0x01#8
  | .writeFailure => 0x02#8
  | .readTimeout => 0x03#8
  | .payloadTooLarge _ => 0x10#8
  | .addressMismatch _ => 0x11#8
  | .frameTooShort _ => 0x12#8
  | .integrityError _ _ => 0x13#8
  | .nackReceived _ => 0x20#8
  | .incrementCommandReceived _ => 0x21#8
  | .unexpectedMessage _ _ => 0x22#8
  | .unexpectedResponse _ => 0x23#8
  | .emptyStatus => 0x30#8
  | .missingBillType => 0x31#8
  | .unexpectedLength _ _ => 0x32#8

/-- Whether the exchange sends a NACK before it surfaces the error (60_exceptions.md R262, last column). -/
def Err.sendsNack (p : Params) (e : Err) : Bool :=
  match e.errClass with
  | .frame => true
  | .transport => (e == .readTimeout) && p.nackOnTimeout
  | _ => false

end Sys2Proof.Machine
end

