-- ==== Sys2Proof/Machine/Codec.lean ====
section
/-! DEFINITION. FrameCodec (40_frame_codec.md sections 2 to 4): "no I/O; pure data transformation". -/

namespace Sys2Proof.Machine

/-- What `encode` answers (40_frame_codec.md R116, R117). -/
inductive Encoded
  | frame (f : List Byte)
  | error (e : Err)
  /-- A payload of exactly 250 bytes: no meaning. -/
  | noMeaning
  deriving DecidableEq, Repr

/-- `encode(address, command, payload)` (R116, R117). -/
def encodeRequest (address command : Byte) (payload : List Byte) : Encoded :=
  if Config.maxPayload < payload.length then .error (.payloadTooLarge payload.length)
  else if payload.length = Config.maxPayload then .noMeaning
  else .frame (requestFrame address command payload)

/-- `classify(bytes)` (R124), for a block whose `INC_CMD_CODE` is `inc`. -/
def classifyFrame (inc : Byte) (bytes : List Byte) : Response :=
  if bytes.length = Config.minLen then
    let d := bytes.getD 3 0
    if d = Config.ackCode then .ack
    else if d = Config.nackCode then .nack
    else if d = inc then .incrementCommand
    else .message [d]
  else .message (messageBody bytes)

/-- `decodeResponse(bytes, expectedAddress)` (R120 to R125): address, length, CRC, in that order. Byte 0 is not tested
(R125). -/
def validateResponse (inc : Byte) (bytes : List Byte) (expectedAddress : Byte) : Except Err Response :=
  if bytes.length < 3 then .error (.frameTooShort bytes.length)
  else if bytes.getD 1 0 ≠ expectedAddress then .error (.addressMismatch (bytes.getD 1 0))
  else if (bytes.getD 2 0).toNat < Config.minLen then .error (.frameTooShort (bytes.getD 2 0).toNat)
  else if bytes.length < Config.minLen then .error (.frameTooShort bytes.length)
  else if crc16 (protectedPart bytes) ≠ carriedCrc bytes then
    .error (.integrityError (crc16 (protectedPart bytes)) (carriedCrc bytes))
  else .ok (classifyFrame inc bytes)

end Sys2Proof.Machine
end

