-- ==== Sys2Proof/Machine/Decoder.lean ====
section
/-! DEFINITION. ResponseDecoder (43_response_decoder.md): payload bytes to typed results. Every decoder is a pure
function of the response and of the operation that was issued. -/

namespace Sys2Proof.Machine

/-- The common rule of the five decoders that expect a `Message` (43_response_decoder.md R201, R202): the variant tests come
before any length test (60_exceptions.md R269). -/
def expectMessage (cmd : Byte) (r : Response) (decodeBody : List Byte → Result) : Result :=
  match r with
  | .ack => .err (.unexpectedResponse cmd)
  | .nack => .err (.nackReceived cmd)
  | .incrementCommand => .err (.incrementCommandReceived cmd)
  | .message p => decodeBody p

/-! ## Status (R203 to R205) -/

/-- The case of `decodeStatus` on a body of first byte `code` and the bytes `more` after it (R203). Bytes beyond those a
variant uses are ignored (R204). -/
def statusOf (code : Byte) (more : List Byte) : Result :=
  if code = 0x10#8 then .ok (.status .powerUp)
  else if code = 0x13#8 then .ok (.status .initializing)
  else if code = 0x14#8 then .ok (.status .idling)
  else if code = 0x19#8 then .ok (.status .disabled)
  else if code = 0x1A#8 then .ok (.status .holding)
  else if code = 0x1C#8 then .ok (.status (.rejecting more.head?))
  else if code = 0x1D#8 then .ok (.status .dispensing)
  else if code = 0x41#8 then .ok (.status .cassetteFull)
  else if code = 0x42#8 then .ok (.status .cassetteRemoved)
  else if code = 0x80#8 then
    match more with
    | [] => .err .missingBillType
    | t :: _ => .ok (.status (.escrow t))
  else .ok (.status (.other code))

/-- The body of `decodeStatus` (R203). -/
def statusBody : List Byte → Result
  | [] => .err .emptyStatus
  | code :: more => statusOf code more

/-- `decodeStatus(r)`, the decoder of `poll` (R203). -/
def statusResult (r : Response) : Result := expectMessage Config.cmdPoll r statusBody

/-! ## Bill options (R210, R212) -/

/-- The eight booleans of a byte, bit 0 first (20_memory.md R64). -/
def bitsLsbFirst (b : Byte) : List Bool := (List.range 8).map b.getLsbD

/-- `unpack24(b)` (R212): "bit *i* of byte *i/8* maps to element *i*, LSB-first". -/
def unpackBits (b0 b1 b2 : Byte) : List Bool := bitsLsbFirst b0 ++ bitsLsbFirst b1 ++ bitsLsbFirst b2

/-- `unpack24(p[o .. o+3])`. -/
def unpackAt (p : List Byte) (o : Nat) : List Bool :=
  unpackBits (p.getD o 0) (p.getD (o + 1) 0) (p.getD (o + 2) 0)

/-- The body of `decodeBillOptions` (R210). -/
def billOptionsBody (o : BillOptOffsets) (p : List Byte) : Result :=
  if p.length ≠ Config.billOptLen then .err (.unexpectedLength p.length (some Config.billOptLen))
  else .ok (.billOptions { acceptable := unpackAt p o.acceptable, security := unpackAt p o.security
                           routing := unpackAt p o.routing })

/-- `decodeBillOptions(r)`, the decoder of `getBillOptions` (R210). -/
def billOptionsResult (o : BillOptOffsets) (r : Response) : Result :=
  expectMessage Config.cmdPoll r (billOptionsBody o)

/-! ## Cassette status (R215) -/

/-- One cassette from its two bytes (R215): bits 5 to 0 of the first are ignored. -/
def cassetteOf (f n : Byte) : CassetteStatus :=
  { present := f.getLsbD 7, full := f.getLsbD 6, billCount := n }

/-- The cassettes of a body, two bytes each. -/
def cassettesOf : List Byte → List CassetteStatus
  | f :: n :: rest => cassetteOf f n :: cassettesOf rest
  | _ => []

/-- The body of `decodeCassetteStatus` (R215). -/
def cassettesBody (p : List Byte) : Result :=
  if p.length % 2 ≠ 0 then .err (.unexpectedLength p.length none) else .ok (.cassettes (cassettesOf p))

/-- `decodeCassetteStatus(r)`, the decoder of `cassetteStatus` (R215). -/
def cassettesResult (r : Response) : Result := expectMessage Config.cmdRecCassetteStatus r cassettesBody

/-! ## Bill table (R220 to R223) -/

/-- `denom(base, e)` (R222): sign and magnitude, not two's complement. -/
def denomOf (base e : Byte) : Denomination :=
  { base := base, divide := e.getLsbD 7, exponent := e.setWidth 7 }

/-- The exact value of a denomination (R222, R223). -/
def Denomination.value (d : Denomination) : ℚ :=
  if d.divide then (d.base.toNat : ℚ) / 10 ^ d.exponent.toNat else (d.base.toNat : ℚ) * 10 ^ d.exponent.toNat

/-- The entries of a body, five bytes each (R220, R221). -/
def billsOf : List Byte → List BillDescription
  | b0 :: c1 :: c2 :: c3 :: e :: rest =>
    { denomination := denomOf b0 e, countryCode := [c1, c2, c3] } :: billsOf rest
  | _ => []

/-- The body of `decodeBillTable` (R220). -/
def billTableBody (p : List Byte) : Result :=
  if p.length % 5 ≠ 0 then .err (.unexpectedLength p.length none) else .ok (.billTable (billsOf p))

/-- `decodeBillTable(r)`, the decoder of `getBillTable` (R220). -/
def billTableResult (r : Response) : Result := expectMessage Config.cmdGetBillTable r billTableBody

/-! ## Identification (R226 to R229) -/

/-- A big-endian number, most significant byte first (R228). -/
def bigEndian (bytes : List Byte) : Nat := bytes.foldl (fun n b => 256 * n + b.toNat) 0

/-- Where a check of UTF-8 stands: how many continuation bytes are due, and the range of the next one. -/
structure Utf8State where
  due : Nat
  low : Nat
  high : Nat
  deriving DecidableEq, Repr

/-- One byte of a check of UTF-8. The spec says "malformed UTF-8" and not what that is: the well-formed sequences are those of
the Unicode standard (no overlong form, no surrogate, nothing above U+10FFFF). PRESUMED, assumption log 7. -/
def utf8Next (st : Utf8State) (b : Byte) : Option Utf8State :=
  let n := b.toNat
  if st.due = 0 then
    if n < 0x80 then some ⟨0, 0, 0⟩
    else if 0xC2 ≤ n ∧ n ≤ 0xDF then some ⟨1, 0x80, 0xBF⟩
    else if n = 0xE0 then some ⟨2, 0xA0, 0xBF⟩
    else if n = 0xED then some ⟨2, 0x80, 0x9F⟩
    else if 0xE1 ≤ n ∧ n ≤ 0xEF then some ⟨2, 0x80, 0xBF⟩
    else if n = 0xF0 then some ⟨3, 0x90, 0xBF⟩
    else if 0xF1 ≤ n ∧ n ≤ 0xF3 then some ⟨3, 0x80, 0xBF⟩
    else if n = 0xF4 then some ⟨3, 0x80, 0x8F⟩
    else none
  else if st.low ≤ n ∧ n ≤ st.high then some ⟨st.due - 1, 0x80, 0xBF⟩
  else none

/-- The check run over a byte list. -/
def utf8From : Utf8State → List Byte → Bool
  | st, [] => st.due == 0
  | st, b :: rest =>
    match utf8Next st b with
    | some st' => utf8From st' rest
    | none => false

/-- Whether the bytes are well-formed UTF-8. -/
def utf8WellFormed (bytes : List Byte) : Bool := utf8From ⟨0, 0, 0⟩ bytes

/-- The seven-character string `UNKNOWN` (R229). -/
def unknownText : List Byte := [0x55#8, 0x4E#8, 0x4B#8, 0x4E#8, 0x4F#8, 0x57#8, 0x4E#8]

/-- A text field: a field whose bytes are not well-formed UTF-8 becomes `UNKNOWN` (R229). -/
def textOf (bytes : List Byte) : InfoValue :=
  if utf8WellFormed bytes then .text bytes else .text unknownText

/-- The value of one field of the layout (R227 to R229): the asset number is eight bytes at its offset, every other field is
text. -/
def infoFieldOf (p : List Byte) (f : InfoField) : InfoName × InfoValue :=
  match f.name with
  | .assetNumber => (f.name, .number (bigEndian ((p.drop f.offset).take 8)))
  | _ => (f.name, textOf ((p.drop f.offset).take f.length))

/-- The record of a 109-byte body (R226, R227): with no layout, the bytes undecoded. -/
def infoOf (layout : Option (List InfoField)) (p : List Byte) : Info :=
  match layout with
  | none => { raw := p, fields := [] }
  | some fs => { raw := p, fields := fs.map (infoFieldOf p) }

/-- The body of `decodeInfo` (R226). -/
def infoBody (layout : Option (List InfoField)) (p : List Byte) : Result :=
  if p.length ≠ Config.infoLen then .err (.unexpectedLength p.length (some Config.infoLen))
  else .ok (.info (infoOf layout p))

/-- `decodeInfo(r)`, the decoder of `info` (R226). -/
def infoResult (layout : Option (List InfoField)) (r : Response) : Result :=
  expectMessage Config.cmdExtIdent r (infoBody layout)

/-! ## Stack and return (R232) -/

/-- `expectAck(r)`, the decoder of `stackBill` and `returnBill` (R232). -/
def ackResult (cmd : Byte) (r : Response) : Result :=
  match r with
  | .ack => .ok .unit
  | .message p => .err (.unexpectedMessage cmd p)
  | .nack => .err (.nackReceived cmd)
  | .incrementCommand => .err (.incrementCommandReceived cmd)

/-- The decoder of the operation that was issued (R200, 30_encoding.md R99). `exchange` returns the raw response
(44_device_controller.md R249); `resetAll` runs no exchange. -/
def decodeFor (p : Params) (op : Op) (r : Response) : Result :=
  match op with
  | .exchange => .ok (.response r)
  | .poll => statusResult r
  | .getBillOptions => billOptionsResult p.billOptOffsets r
  | .getBillTable => billTableResult r
  | .info => infoResult p.infoLayout r
  | .cassetteStatus => cassettesResult r
  | .stackBill => ackResult Config.cmdStack r
  | .returnBill => ackResult Config.cmdReturn r
  | .resetAll => .ok (.response r)

end Sys2Proof.Machine
end

