-- ==== Sys2Proof/Machine/Governor.lean ====
section
/-! DEFINITION. TransportGovernor and the sending half of LinkProtocol (41_transport_governor.md,
42_link_protocol.md sections 2, 3 and 7): the spacing floor with the issue of the request, the wait for the
drain, the line break. Each operation is one observation of its condition: where it does not hold the block waits, that
is, the state is left as it is. -/

namespace Sys2Proof.Machine

/-- A call is accepted only by a block that exists (10_state.md R41), in `Idle` (R43). -/
def State.whenIdle (s : State) (answer : Out) : Out :=
  if s.opened = false then .fault .noBlock
  else if s.phase ≠ .idle then .fault .callWhileBusy
  else answer

/-- `exchange(cmd, payload)` is accepted for the operation `op` (10_state.md R43, 42_link_protocol.md R161):
`state <- Delay`, `cur_cmd <- cmd`, `pend_err <- none`; nothing of an earlier result survives (10_state.md R35), and with `Idle` left
`rx_count` is 0 (10_state.md R27). -/
def accept (op : Op) (cmd : Byte) (payload : List Byte) (s : State) : Out :=
  s.whenIdle <| .next
    { s with phase := .delay, curOp := op, curCmd := cmd, curPayload := payload, pendErr := none, res := none
             rxCount := 0 }

/-- `Now() - last_req >= 150` (41_transport_governor.md R141). -/
abbrev State.floorMet (s : State) : Prop := s.lastReq + Config.tSpacing ≤ s.now

/-- `last_req <- Now()` (R141). -/
def State.stamp (s : State) : State := { s with lastReq := s.now }

/-- The end of an exchange with response `r`: the decoder of the operation that was issued gives the result
(43_response_decoder.md R200, R206: `state` is `Idle` throughout decoding). -/
def State.complete (s : State) (r : Response) : State := s.finish (decodeFor s.params s.curOp r)

/-- The state in which the request frame `f` is handed to the transport, at one value of `now` (41_transport_governor.md R143):
the stamp (42_link_protocol.md R162), the frame in `txbuf` with `crc` as working register (10_state.md R21, R163), and
`T.clearInput()` where `CLEAR_RX_BEFORE_SEND` is true (R164). -/
def State.requestLoaded (s : State) (f : List Byte) : State :=
  { s.loadTx f with
    lastReq := s.now
    crc := crc16 (requestBody s.addr s.curCmd s.curPayload)
    inQueue := if s.params.clearRxBeforeSend then s.clearInput.inQueue else s.inQueue }

/-- Steps 1 and 2 of an exchange (42_link_protocol.md R162 to R165): stamp, encode, clear the input, write. An error of
`encode` comes after the stamp and before anything is written (41_transport_governor.md R144). -/
def issueRequest (s : State) : Out :=
  match encodeRequest s.addr s.curCmd s.curPayload with
  | .error e => .next (s.stamp.raise e)
  | .noMeaning => .refused .payload250
  | .frame f =>
    let s := s.requestLoaded f
    match s.writeAll s.txFrame with
    | (true, s') => .next (s'.setPhase .sending)
    | (false, s') => .next (s'.raise .writeFailure)

/-- One observation of the clock in `Delay` (R162). -/
def observeFloor (s : State) : Out := if s.floorMet then issueRequest s else .next s

/-- `T.pending() = 0` is observed in `Sending`, `AckSent` or `NackSent` (42_link_protocol.md R166, R178). -/
def drained (s : State) : Out :=
  match s.phase with
  | .sending =>
    .next { s with rxDeadline := s.now + Config.tRead, rxCount := 0, phase := .waitingEcho }
  | .ackSent => .next (s.complete (.message s.message))
  | .nackSent =>
    match s.pendErr with
    | some e => .next (s.raise e)
    | none => .fault .noTransition
  | _ => .fault .noTransition

/-- One observation of the output count in a state that waits for the drain (41_transport_governor.md R147). -/
def observeDrain (s : State) : Out := if s.pending = 0 then drained s else .next s

/-- `resetLink` is accepted (41_transport_governor.md R149): the break is asserted and its end set; `rx_count` is 0 in `Breaking`
(10_state.md R27). -/
def beginBreak (s : State) : Out :=
  s.whenIdle <| .next
    { s.assertBreak with breakUntil := s.now + Config.tBreak, phase := .breaking, curOp := .resetAll, res := none
                         rxCount := 0 }

/-- One observation of the clock in `Breaking` (R149): the break is released not before `break_until`. -/
def observeBreak (s : State) : Out :=
  if s.breakUntil ≤ s.now then .next (s.clearBreak.returnOk .unit) else .next s

end Sys2Proof.Machine
end

