-- ==== Sys2Proof/Machine/Link.lean ====
section
/-! DEFINITION. The receiving half of LinkProtocol (42_link_protocol.md sections 4 to 6): hunt for `SYNC`, the
frame byte by byte, validation, the answer. -/

namespace Sys2Proof.Machine

/-- Validation and what follows it, with the whole frame in `rxbuf[0 .. rx_len]` (42_link_protocol.md R173, R174). -/
def finishFrame (s : State) : State :=
  let frame := s.rxFrame
  let computed := crc16 (protectedPart frame)
  let carried := carriedCrc frame
  if computed ≠ carried then s.failRx (.integrityError computed carried)
  else
    match classifyFrame s.params.incCmdCode frame with
    | .message m => s.sendAck m
    | r => s.complete r

/-- `SYNC` is read (42_link_protocol.md R168): stored at offset 0, the CRC started. -/
def State.syncSeen (s : State) : State :=
  { s with rxbuf := s.rxbuf.write 0 Config.sync, rxCount := 1, crc := crcUpdate Config.crcInit Config.sync
           phase := .receivingFrame }

/-- A byte after the third (42_link_protocol.md R172): the CRC runs over offsets below `rx_len - 2` only. -/
def State.storeBody (s : State) (b : Byte) : State :=
  if s.rxCount < s.rxLen.toNat - 2 then (s.storeRx b).runCrc b else s.storeRx b

/-- A byte has been read in `WaitingEcho` or `ReceivingFrame` (42_link_protocol.md R168 to R173). -/
def takeByte (b : Byte) (s : State) : Out :=
  match s.phase with
  | .waitingEcho => if b = Config.sync then .next s.syncSeen else .next s
  | .receivingFrame =>
    if s.rxCount = 1 then
      let s' := (s.storeRx b).runCrc b
      if b = s.addr then .next s' else .next (s'.failRx (.addressMismatch b))
    else if s.rxCount = 2 then
      let s' : State := { (s.storeRx b).runCrc b with rxLen := b }
      if b.toNat < Config.minLen then .next (s'.failRx (.frameTooShort b.toNat)) else .next s'
    else if 3 ≤ s.rxCount ∧ s.rxCount < s.rxLen.toNat then
      let s' := s.storeBody b
      if s'.rxCount = s'.rxLen.toNat then .next (finishFrame s') else .next s'
    else .fault .noTransition
  | _ => .fault .noTransition

/-- The block reads: one `T.readByte` of the receive phase and what it answers (42_link_protocol.md R168 to R175). -/
def receiveStep (s : State) : Out :=
  match s.readByte with
  | (.byte b, s') => takeByte b s'
  | (.timeout, s') => .next (s'.failRx .readTimeout)
  | (.notYet, s') => .next s'

/-- The block is in the receive phase (20_memory.md R69: it reads in no other). -/
abbrev State.receiving (s : State) : Prop := s.phase = .waitingEcho ∨ s.phase = .receivingFrame

/-- The block reads, byte after byte, until it leaves the receive phase or `n` reads are done. -/
def receiveUpTo : Nat → State → Out
  | 0, s => .next s
  | n + 1, s =>
    if s.receiving then
      match receiveStep s with
      | .next s' => receiveUpTo n s'
      | .fault f => .fault f
      | .refused r => .refused r
    else .next s

/-- Bytes of the slave arrive and the block, where it is receiving, reads what is there (42_link_protocol.md R168 to R173);
in any other state they wait in the input queue (60_exceptions.md R265). Without a block nobody is there to receive them. -/
def receiveBytes (bytes : List Byte) (s : State) : Out :=
  if s.opened = false then .next s
  else
    let s := s.deliver bytes
    receiveUpTo s.inQueue.length s

end Sys2Proof.Machine
end

