-- ==== Sys2Proof/Machine/Controller.lean ====
section
/-! DEFINITION. The meanings of the ten host operations (44_device_controller.md, 10_state.md R41, R42). An operation
is accepted and the block goes on with it step by step (Machine/Moves.lean); its result is in `res` when `state`
is `Idle` again. -/

namespace Sys2Proof.Machine

/-- `poll()` (44_device_controller.md R241): `decodeStatus(exchange(0x33, []))`. -/
def execPoll (s : State) : Out := accept .poll Config.cmdPoll [] s

/-- `getBillOptions()` (R242): `decodeBillOptions(exchange(0x33, []))`. -/
def execGetBillOptions (s : State) : Out := accept .getBillOptions Config.cmdPoll [] s

/-- `getBillTable()` (R243): `decodeBillTable(exchange(0x41, []))`. -/
def execGetBillTable (s : State) : Out := accept .getBillTable Config.cmdGetBillTable [] s

/-- `info()` (R244): `decodeInfo(exchange(0x3E, []))`. -/
def execInfo (s : State) : Out := accept .info Config.cmdExtIdent [] s

/-- `cassetteStatus()` (R245): `decodeCassetteStatus(exchange(0x70, []))`. -/
def execCassetteStatus (s : State) : Out := accept .cassetteStatus Config.cmdRecCassetteStatus [] s

/-- `stackBill()` (R246): `expectAck(exchange(0x35, []))`. -/
def execStackBill (s : State) : Out := accept .stackBill Config.cmdStack [] s

/-- `returnBill()` (R247): `expectAck(exchange(0x36, []))`. -/
def execReturnBill (s : State) : Out := accept .returnBill Config.cmdReturn [] s

/-- `resetAll()` (R248): `resetLink()`; no frame, no spacing floor, no stamp. -/
def execResetAll (s : State) : Out := beginBreak s

/-- `construct(PATH, ADDR, BAUD)` (10_state.md R41): the transport is opened; on success the registers take the values of
70_reset_and_hazards.md R301 (those R301 calls unspecified keep what they hold), on failure `Err(OpenFailure)` is
returned and no block exists. -/
def execConstruct (path : String) (addr : Byte) (baud : Baud) (s : State) : Out :=
  if s.opened then .fault .alreadyConstructed
  else
    match s.openPort path baud with
    | (true, s') =>
      .next { s' with addr := addr, baud := baud, opened := true, lastReq := s'.now, phase := .idle, rxCount := 0
                      pendErr := none, res := none, outQueue := [], breakOn := false }
    | (false, s') => .next (s'.setRes (.err .openFailure))

/-- `exchange(cmd, payload)` (42_link_protocol.md R160, R161). -/
def execExchange (cmd : Byte) (payload : List Byte) (s : State) : Out := accept .exchange cmd payload s

end Sys2Proof.Machine
end

