-- ==== Sys2Proof/Machine/Frames.lean ====
section
/-! DEFINITION. The meanings of the frames on the line: the nine frames the master sends (format `M6`) and the eight classes of
bytes the slave sends (formats `S6`, `SV`, `S_ILLEGAL`). A frame of the master is sent where the block's rules send it
and nowhere else ("No other transition exists", 42_link_protocol.md R180); bytes of the slave may come at any time. -/

namespace Sys2Proof.Machine

/-! ## Frames of the master -/

/-- The block sends the six-byte request with command byte `cmd` to `a` (42_link_protocol.md R162 to R165): in `Delay`, with
that request in flight; before the floor is met it waits. -/
def sendRequest (cmd a : Byte) (s : State) : Out :=
  if s.opened = false then .fault .noBlock
  else if s.phase = .delay ∧ s.curCmd = cmd ∧ s.curPayload = [] ∧ a = s.addr then observeFloor s
  else .fault .noTransition

/-- The request frame 0x31, which only `exchange(0x31, [])` sends (44_device_controller.md R249). -/
def execReqGetStatus (a : Byte) (s : State) : Out := sendRequest Config.cmdGetStatus a s

/-- The request frame of `poll` and `getBillOptions` (44_device_controller.md R241, R242). -/
def execReqPoll (a : Byte) (s : State) : Out := sendRequest Config.cmdPoll a s

/-- The request frame of `stackBill` (44_device_controller.md R246). -/
def execReqStack (a : Byte) (s : State) : Out := sendRequest Config.cmdStack a s

/-- The request frame of `returnBill` (44_device_controller.md R247). -/
def execReqReturn (a : Byte) (s : State) : Out := sendRequest Config.cmdReturn a s

/-- The request frame of `info` (44_device_controller.md R244). -/
def execReqExtIdent (a : Byte) (s : State) : Out := sendRequest Config.cmdExtIdent a s

/-- The request frame of `getBillTable` (44_device_controller.md R243). -/
def execReqGetBillTable (a : Byte) (s : State) : Out := sendRequest Config.cmdGetBillTable a s

/-- The request frame of `cassetteStatus` (44_device_controller.md R245). -/
def execReqRecCassetteStatus (a : Byte) (s : State) : Out := sendRequest Config.cmdRecCassetteStatus a s

/-- The `m` of a validated `Message(m)` from `ADDR` that is in the receive buffer, whole (42_link_protocol.md R174). -/
def State.messageReceived (s : State) : Option (List Byte) :=
  if s.phase = .receivingFrame ∧ s.rxCount = s.rxLen.toNat then
    match validateResponse s.params.incCmdCode s.rxFrame s.addr with
    | .ok (.message m) => some m
    | _ => none
  else none

/-- The ACK frame (42_link_protocol.md R176, R178): sent when a `Message` has been validated; no spacing delay, no stamp. -/
def execMasterAck (a : Byte) (s : State) : Out :=
  if s.opened = false then .fault .noBlock
  else
    match s.messageReceived with
    | some m => if a = s.addr then .next (s.sendAck m) else .fault .noTransition
    | none => .fault .noTransition

/-- The NACK frame (42_link_protocol.md R175, R177): sent in the receive phase for the error in `pend_err`. -/
def execMasterNack (a : Byte) (s : State) : Out :=
  if s.opened = false then .fault .noBlock
  else
    match s.pendErr with
    | some e => if s.receiving ∧ a = s.addr then .next (s.sendNack e) else .fault .noTransition
    | none => .fault .noTransition

/-! ## Bytes of the slave -/

/-- A frame of class `Ack` (40_frame_codec.md R124): no ACK frame is sent back. -/
def execRspAck (a : Byte) (s : State) : Out := receiveBytes (responseFrame a [Config.ackCode]) s

/-- A frame of class `Nack` (R124). -/
def execRspNack (a : Byte) (s : State) : Out := receiveBytes (responseFrame a [Config.nackCode]) s

/-- A six-byte frame with data byte `i`, `INC_CMD_CODE` (R124). -/
def execRspIncrementCommand (a i : Byte) (s : State) : Out := receiveBytes (responseFrame a [i]) s

/-- A one-byte `Message` (R124), acknowledged like every `Message` (42_link_protocol.md R174). -/
def execRspMessage1 (a d : Byte) (s : State) : Out := receiveBytes (responseFrame a [d]) s

/-- A `Message` of 2 to 250 bytes (R124). -/
def execRspMessage (a : Byte) (body : List Byte) (s : State) : Out := receiveBytes (responseFrame a body) s

/-- `SYNC` and a second byte; where it differs from `ADDR`, `AddressMismatch` (42_link_protocol.md R170). -/
def execRspBadAddress (x : Byte) (s : State) : Out := receiveBytes [Config.sync, x] s

/-- `SYNC`, an address, and a declared length below 6: `FrameTooShort` (42_link_protocol.md R171). -/
def execRspTooShort (a n : Byte) (s : State) : Out := receiveBytes [Config.sync, a, n] s

/-- A frame whose CRC field does not hold the CRC of the bytes before it: `IntegrityError` (42_link_protocol.md R173). -/
def execRspBadCrc (a : Byte) (body : List Byte) (carried : Word16) (s : State) : Out :=
  receiveBytes (responseFrameCarrying a body carried) s

end Sys2Proof.Machine
end

