-- ==== Sys2Proof/Machine/Status.lean ====
section
/-! DEFINITION. The meanings of the 27 status rows: what the body of an answer to `POLL` decodes to (43_response_decoder.md
R203 to R205, 30_encoding.md R93). The decoder runs in `Idle`, after the exchange has ended (R206). -/

namespace Sys2Proof.Machine

/-- `decodeStatus` of the body `code :: more` gives the result of the poll. The spec lists the status rows as encodings and does
not say what one does by itself: that it decodes in `Idle` into `res`, and that it stops elsewhere like a call the host may not
make, with `callWhileBusy` outside `Idle` and `noBlock` before construction, is the model's. DESIGN CHOICE, assumption log 16. -/
def decodeStatusRow (code : Byte) (more : List Byte) (s : State) : Out :=
  s.whenIdle <| .next (s.setRes (statusOf code more))

/-- `STATUS_PowerUp`, code 0x10: decodes to PowerUp. -/
def execStatusPowerUp (more : List Byte) (s : State) : Out := decodeStatusRow 0x10#8 more s

/-- `STATUS_Initialize`, code 0x13: decodes to Initialize. -/
def execStatusInitialize (more : List Byte) (s : State) : Out := decodeStatusRow 0x13#8 more s

/-- `STATUS_Idling`, code 0x14: decodes to Idling. -/
def execStatusIdling (more : List Byte) (s : State) : Out := decodeStatusRow 0x14#8 more s

/-- `STATUS_Accepting`, code 0x15: decodes to Other(0x15). -/
def execStatusAccepting (more : List Byte) (s : State) : Out := decodeStatusRow 0x15#8 more s

/-- `STATUS_Stacking`, code 0x17: decodes to Other(0x17). -/
def execStatusStacking (more : List Byte) (s : State) : Out := decodeStatusRow 0x17#8 more s

/-- `STATUS_Returning`, code 0x18: decodes to Other(0x18). -/
def execStatusReturning (more : List Byte) (s : State) : Out := decodeStatusRow 0x18#8 more s

/-- `STATUS_Disabled`, code 0x19: decodes to Disabled. -/
def execStatusDisabled (more : List Byte) (s : State) : Out := decodeStatusRow 0x19#8 more s

/-- `STATUS_Holding`, code 0x1A: decodes to Holding. -/
def execStatusHolding (more : List Byte) (s : State) : Out := decodeStatusRow 0x1A#8 more s

/-- `STATUS_Busy`, code 0x1B: decodes to Other(0x1B). -/
def execStatusBusy (more : List Byte) (s : State) : Out := decodeStatusRow 0x1B#8 more s

/-- `STATUS_Rejecting`, code 0x1C: decodes to Rejecting(reason). -/
def execStatusRejecting (more : List Byte) (s : State) : Out := decodeStatusRow 0x1C#8 more s

/-- `STATUS_Dispensing`, code 0x1D: decodes to Dispensing. -/
def execStatusDispensing (more : List Byte) (s : State) : Out := decodeStatusRow 0x1D#8 more s

/-- `STATUS_Uploading`, code 0x1E: decodes to Other(0x1E). -/
def execStatusUploading (more : List Byte) (s : State) : Out := decodeStatusRow 0x1E#8 more s

/-- `STATUS_SettingTypeCassette`, code 0x21: decodes to Other(0x21). -/
def execStatusSettingTypeCassette (more : List Byte) (s : State) : Out := decodeStatusRow 0x21#8 more s

/-- `STATUS_Dispensed`, code 0x25: decodes to Other(0x25). -/
def execStatusDispensed (more : List Byte) (s : State) : Out := decodeStatusRow 0x25#8 more s

/-- `STATUS_Unloaded`, code 0x26: decodes to Other(0x26). -/
def execStatusUnloaded (more : List Byte) (s : State) : Out := decodeStatusRow 0x26#8 more s

/-- `STATUS_InvalidBillNumber`, code 0x28: decodes to Other(0x28). -/
def execStatusInvalidBillNumber (more : List Byte) (s : State) : Out := decodeStatusRow 0x28#8 more s

/-- `STATUS_SetCassetteType`, code 0x29: decodes to Other(0x29). -/
def execStatusSetCassetteType (more : List Byte) (s : State) : Out := decodeStatusRow 0x29#8 more s

/-- `STATUS_InvalidCommand`, code 0x30: decodes to Other(0x30). -/
def execStatusInvalidCommand (more : List Byte) (s : State) : Out := decodeStatusRow 0x30#8 more s

/-- `STATUS_DropCassetteFull`, code 0x41: decodes to CassetteFull. -/
def execStatusDropCassetteFull (more : List Byte) (s : State) : Out := decodeStatusRow 0x41#8 more s

/-- `STATUS_DropCassetteRemoved`, code 0x42: decodes to CassetteRemoved. -/
def execStatusDropCassetteRemoved (more : List Byte) (s : State) : Out := decodeStatusRow 0x42#8 more s

/-- `STATUS_JamInAcceptor`, code 0x43: decodes to Other(0x43). -/
def execStatusJamInAcceptor (more : List Byte) (s : State) : Out := decodeStatusRow 0x43#8 more s

/-- `STATUS_JamInStacker`, code 0x44: decodes to Other(0x44). -/
def execStatusJamInStacker (more : List Byte) (s : State) : Out := decodeStatusRow 0x44#8 more s

/-- `STATUS_Cheated`, code 0x45: decodes to Other(0x45). -/
def execStatusCheated (more : List Byte) (s : State) : Out := decodeStatusRow 0x45#8 more s

/-- `STATUS_Escrow`, code 0x80: decodes to Escrow(billType). -/
def execStatusEscrow (more : List Byte) (s : State) : Out := decodeStatusRow 0x80#8 more s

/-- `STATUS_Packed`, code 0x81: decodes to Other(0x81). -/
def execStatusPacked (more : List Byte) (s : State) : Out := decodeStatusRow 0x81#8 more s

/-- `STATUS_Returned`, code 0x82: decodes to Other(0x82). -/
def execStatusReturned (more : List Byte) (s : State) : Out := decodeStatusRow 0x82#8 more s

/-- `STATUS_other`: a code without a name decodes to `Other(code)`, "not an error -- forward compatibility". -/
def execStatusOther (c : Byte) (more : List Byte) (s : State) : Out := decodeStatusRow c more s

end Sys2Proof.Machine
end

