-- ==== Sys2Proof/Machine/Units.lean ====
section
/-! DEFINITION. The meanings of the seventeen unit functions, called by themselves. A function that is "pure data
transformation" returns its value (`ret`) and touches no register; `encode` builds its frame in `txbuf` with `crc` as
working register (10_state.md R21); the three functions of the governor are one observation of their condition, and in the
states of an exchange or a break they are the block's own next step. The spec has no host present a unit function (10_state.md R42),
and has `state` `Idle` throughout decoding (43_response_decoder.md R206): that a pure function presented by itself runs in every
state, outside `Idle` and before construction too, is the model's. DESIGN CHOICE, assumption log 27. -/

namespace Sys2Proof.Machine

/-! ## FrameCodec -/

/-- `crc16(s)` (40_frame_codec.md R110). -/
def execCrc16 (bytes : List Byte) (s : State) : Out := .next (s.setRet (.word (crc16 bytes)))

/-- `crc_update(c, b)` (R111). -/
def execCrcUpdate (c : Word16) (b : Byte) (s : State) : Out := .next (s.setRet (.word (crcUpdate c b)))

/-- `encode(address, command, payload)` (R116, R117). -/
def execEncode (address command : Byte) (payload : List Byte) (s : State) : Out :=
  s.whenIdle <|
    match encodeRequest address command payload with
    | .error e => .next (s.setRet (.outcome (.err e)))
    | .noMeaning => .refused .payload250
    | .frame f =>
      let s : State := { s.loadTx f with crc := crc16 (requestBody address command payload) }
      .next (s.setRet (.bytes f))

/-- `decodeResponse(bytes, expectedAddress)` (R120 to R125). -/
def execDecodeResponse (bytes : List Byte) (expectedAddress : Byte) (s : State) : Out :=
  match validateResponse s.params.incCmdCode bytes expectedAddress with
  | .ok r => .next (s.setRet (.outcome (.ok (.response r))))
  | .error e => .next (s.setRet (.outcome (.err e)))

/-- `classify(bytes)` (R124), "called only on a frame that passed rules R121 to R123". -/
def execClassify (bytes : List Byte) (s : State) : Out :=
  if bytes.length < Config.minLen then .refused .notAFrame
  else .next (s.setRet (.response (classifyFrame s.params.incCmdCode bytes)))

/-- `encodeResponseFrame(address, data)` (R126), "defined for `1 <= len(data) <= 250`". -/
def execEncodeResponseFrame (address : Byte) (data : List Byte) (s : State) : Out :=
  if data.length < 1 ∨ 250 < data.length then .refused .responseBodyLength
  else .next (s.setRet (.bytes (responseFrame address data)))

/-! ## TransportGovernor -/

/-- `delayBeforeRequest()` (41_transport_governor.md R141). In `Delay` it is step 1 of the exchange, which goes on to step 2 at
the same value of `now` (42_link_protocol.md R162); called by itself in `Idle` it stamps and returns, or waits. -/
def execDelayBeforeRequest (s : State) : Out :=
  if s.opened = false then .fault .noBlock
  else
    match s.phase with
    | .delay => observeFloor s
    | .idle => if s.floorMet then .next (s.stamp.setRet .unit) else .next (s.setRet .waiting)
    | _ => .fault .noTransition

/-- `waitForTransmitComplete()` (R147): reads `T.pending()`, writes nothing. Where the exchange waits for the drain, the
exchange goes on with it (R148). -/
def execWaitForTransmitComplete (s : State) : Out :=
  if s.opened = false then .fault .noBlock
  else
    match s.phase with
    | .sending => observeDrain s
    | .ackSent => observeDrain s
    | .nackSent => observeDrain s
    | _ => if s.pending = 0 then .next (s.setRet .unit) else .next (s.setRet .waiting)

/-- `resetLink()` (R149): begins the break in `Idle`; in `Breaking` it waits for `break_until` and releases it. R151 has it reached
only through `resetAll`, and 10_state.md R42 lists no `resetLink` among the operations of the host: that the row presented by itself
in `Idle` does what `resetAll` does, with `resetAll` as the operation in flight and the result in `res`, is the model's.
DESIGN CHOICE, assumption log 26. -/
def execResetLink (s : State) : Out :=
  if s.opened = true ∧ s.phase = .breaking then observeBreak s else beginBreak s

/-! ## ResponseDecoder

In an exchange a decoder runs with `state` `Idle` (43_response_decoder.md R206; `State.complete`). Presented by itself it runs in every
state: DESIGN CHOICE, assumption log 27. -/

/-- `decodeStatus(r)` (43_response_decoder.md R203). Presented by itself it runs in every state, outside `Idle` and before construction
too, as the decoders, `unpack24`, `denom` and `expectAck` below do. DESIGN CHOICE, assumption log 27. -/
def execDecodeStatus (r : Response) (s : State) : Out := .next (s.setRet (.outcome (statusResult r)))

/-- `decodeBillOptions(r)` (R210). -/
def execDecodeBillOptions (r : Response) (s : State) : Out :=
  .next (s.setRet (.outcome (billOptionsResult s.params.billOptOffsets r)))

/-- `unpack24(b)` (R212). -/
def execUnpack24 (b0 b1 b2 : Byte) (s : State) : Out := .next (s.setRet (.bits (unpackBits b0 b1 b2)))

/-- `decodeCassetteStatus(r)` (R215). -/
def execDecodeCassetteStatus (r : Response) (s : State) : Out := .next (s.setRet (.outcome (cassettesResult r)))

/-- `decodeBillTable(r)` (R220). -/
def execDecodeBillTable (r : Response) (s : State) : Out := .next (s.setRet (.outcome (billTableResult r)))

/-- `denom(base, e)` (R222). -/
def execDenom (base e : Byte) (s : State) : Out := .next (s.setRet (.denomination (denomOf base e)))

/-- `decodeInfo(r)` (R226). -/
def execDecodeInfo (r : Response) (s : State) : Out :=
  .next (s.setRet (.outcome (infoResult s.params.infoLayout r)))

/-- `expectAck(r)` for the command attempted (R232). -/
def execExpectAck (cmd : Byte) (r : Response) (s : State) : Out := .next (s.setRet (.outcome (ackResult cmd r)))

end Sys2Proof.Machine
end

