-- ==== Sys2Proof/Machine/Dispatch.lean ====
section
/-! DEFINITION. One arm per constructor of `Instr`. -/

namespace Sys2Proof.Machine

open Host

def exec (i : Instr) (s : State) : Host.Outcome State Fault Refusal :=
  match i with
  | .poll => Sys2Proof.Machine.execPoll s
  | .getBillOptions => Sys2Proof.Machine.execGetBillOptions s
  | .getBillTable => Sys2Proof.Machine.execGetBillTable s
  | .info => Sys2Proof.Machine.execInfo s
  | .cassetteStatus => Sys2Proof.Machine.execCassetteStatus s
  | .stackBill => Sys2Proof.Machine.execStackBill s
  | .returnBill => Sys2Proof.Machine.execReturnBill s
  | .resetAll => Sys2Proof.Machine.execResetAll s
  | .construct path addr baud => Sys2Proof.Machine.execConstruct path addr baud s
  | .exchange cmd payload => Sys2Proof.Machine.execExchange cmd payload s
  | .reqGetStatus a => Sys2Proof.Machine.execReqGetStatus a s
  | .reqPoll a => Sys2Proof.Machine.execReqPoll a s
  | .reqStack a => Sys2Proof.Machine.execReqStack a s
  | .reqReturn a => Sys2Proof.Machine.execReqReturn a s
  | .reqExtIdent a => Sys2Proof.Machine.execReqExtIdent a s
  | .reqGetBillTable a => Sys2Proof.Machine.execReqGetBillTable a s
  | .reqRecCassetteStatus a => Sys2Proof.Machine.execReqRecCassetteStatus a s
  | .masterAck a => Sys2Proof.Machine.execMasterAck a s
  | .masterNack a => Sys2Proof.Machine.execMasterNack a s
  | .rspAck a => Sys2Proof.Machine.execRspAck a s
  | .rspNack a => Sys2Proof.Machine.execRspNack a s
  | .rspIncrementCommand a c => Sys2Proof.Machine.execRspIncrementCommand a c s
  | .rspMessage1 a d => Sys2Proof.Machine.execRspMessage1 a d s
  | .rspMessage a body => Sys2Proof.Machine.execRspMessage a body s
  | .rspBadAddress x => Sys2Proof.Machine.execRspBadAddress x s
  | .rspTooShort a n => Sys2Proof.Machine.execRspTooShort a n s
  | .rspBadCrc a body carried => Sys2Proof.Machine.execRspBadCrc a body carried s
  | .statusPowerUp more => Sys2Proof.Machine.execStatusPowerUp more s
  | .statusInitialize more => Sys2Proof.Machine.execStatusInitialize more s
  | .statusIdling more => Sys2Proof.Machine.execStatusIdling more s
  | .statusAccepting more => Sys2Proof.Machine.execStatusAccepting more s
  | .statusStacking more => Sys2Proof.Machine.execStatusStacking more s
  | .statusReturning more => Sys2Proof.Machine.execStatusReturning more s
  | .statusDisabled more => Sys2Proof.Machine.execStatusDisabled more s
  | .statusHolding more => Sys2Proof.Machine.execStatusHolding more s
  | .statusBusy more => Sys2Proof.Machine.execStatusBusy more s
  | .statusRejecting more => Sys2Proof.Machine.execStatusRejecting more s
  | .statusDispensing more => Sys2Proof.Machine.execStatusDispensing more s
  | .statusUploading more => Sys2Proof.Machine.execStatusUploading more s
  | .statusSettingTypeCassette more => Sys2Proof.Machine.execStatusSettingTypeCassette more s
  | .statusDispensed more => Sys2Proof.Machine.execStatusDispensed more s
  | .statusUnloaded more => Sys2Proof.Machine.execStatusUnloaded more s
  | .statusInvalidBillNumber more => Sys2Proof.Machine.execStatusInvalidBillNumber more s
  | .statusSetCassetteType more => Sys2Proof.Machine.execStatusSetCassetteType more s
  | .statusInvalidCommand more => Sys2Proof.Machine.execStatusInvalidCommand more s
  | .statusDropCassetteFull more => Sys2Proof.Machine.execStatusDropCassetteFull more s
  | .statusDropCassetteRemoved more => Sys2Proof.Machine.execStatusDropCassetteRemoved more s
  | .statusJamInAcceptor more => Sys2Proof.Machine.execStatusJamInAcceptor more s
  | .statusJamInStacker more => Sys2Proof.Machine.execStatusJamInStacker more s
  | .statusCheated more => Sys2Proof.Machine.execStatusCheated more s
  | .statusEscrow more => Sys2Proof.Machine.execStatusEscrow more s
  | .statusPacked more => Sys2Proof.Machine.execStatusPacked more s
  | .statusReturned more => Sys2Proof.Machine.execStatusReturned more s
  | .statusOther c more => Sys2Proof.Machine.execStatusOther c more s
  | .crc16 bytes => Sys2Proof.Machine.execCrc16 bytes s
  | .crcUpdate c b => Sys2Proof.Machine.execCrcUpdate c b s
  | .encode address command payload => Sys2Proof.Machine.execEncode address command payload s
  | .decodeResponse bytes expectedAddress => Sys2Proof.Machine.execDecodeResponse bytes expectedAddress s
  | .classify bytes => Sys2Proof.Machine.execClassify bytes s
  | .encodeResponseFrame address data => Sys2Proof.Machine.execEncodeResponseFrame address data s
  | .delayBeforeRequest => Sys2Proof.Machine.execDelayBeforeRequest s
  | .waitForTransmitComplete => Sys2Proof.Machine.execWaitForTransmitComplete s
  | .resetLink => Sys2Proof.Machine.execResetLink s
  | .decodeStatus r => Sys2Proof.Machine.execDecodeStatus r s
  | .decodeBillOptions r => Sys2Proof.Machine.execDecodeBillOptions r s
  | .unpack24 b0 b1 b2 => Sys2Proof.Machine.execUnpack24 b0 b1 b2 s
  | .decodeCassetteStatus r => Sys2Proof.Machine.execDecodeCassetteStatus r s
  | .decodeBillTable r => Sys2Proof.Machine.execDecodeBillTable r s
  | .denom base e => Sys2Proof.Machine.execDenom base e s
  | .decodeInfo r => Sys2Proof.Machine.execDecodeInfo r s
  | .expectAck cmd r => Sys2Proof.Machine.execExpectAck cmd r s

end Sys2Proof.Machine
end

