-- ==== Sys2Proof/Machine/Moves.lean ====
section
/-! DEFINITION. What one step can be (00_scope.md R10, 10_state.md R20, R27): the block's own next step, which `state` alone
selects, or a move of the environment. -/

namespace Sys2Proof.Machine

/-- The block takes its next step (42_link_protocol.md R180). The pair (`state`, `rx_count`) "plays the part a program counter
plays" (10_state.md R27): in `Delay`, in the three states that wait for the drain and in `Breaking` it calls the
governor's function, in the receive phase it reads a byte, in `Idle` it looks at nothing (60_exceptions.md R265). -/
def blockMove (s : State) : Out :=
  if s.opened = false then .next s
  else
    match s.phase with
    | .idle => .next s
    | .delay => exec .delayBeforeRequest s
    | .sending => exec .waitForTransmitComplete s
    | .waitingEcho => receiveStep s
    | .receivingFrame => receiveStep s
    | .ackSent => exec .waitForTransmitComplete s
    | .nackSent => exec .waitForTransmitComplete s
    | .breaking => exec .resetLink s

/-- The bytes presented in a format, decoded and run. -/
def runWire (f : Format) (bytes : List Byte) (s : State) : Out :=
  match decode s.params.incCmdCode f bytes with
  | .ok i => exec i s
  | .reject e => .refused (.undecodable e)

/-- One move. -/
def runMove (m : Move) (s : State) : Out :=
  match m with
  | .present i => exec i s
  | .wire f bytes => runWire f bytes s
  | .advance ms => .next (s.advance ms)
  | .drain n => .next (s.drain n)
  | .arrive bytes => .next (s.deliver bytes)
  | .observe => blockMove s

/-- The next step: the next move of the script, and with no script the block's own step. -/
def nextMove (s : State) : Out :=
  match s.script with
  | [] => blockMove s
  | m :: rest => runMove m { s with script := rest }

end Sys2Proof.Machine
end

