-- ==== Sys2Proof/Machine/Step.lean ====
section
/-! DEFINITION. The step, and where the host's interface puts an instruction for the next step to run. -/

namespace Sys2Proof.Machine

/-- One step of the machine. -/
def step (s : State) : Host.Outcome State Fault Refusal := nextMove s

/-- `s` with the instruction whose bits are `w` as the next move presented to the block (assumption log 6): the block
fetches no instructions (10_state.md R28), so the place a step takes one from is the head of the script. -/
def State.withFetchWord (s : State) (nbits w : Nat) : State :=
  { s with script := .wire (tableFormat nbits w) (tableBytes nbits w) :: s.script }

end Sys2Proof.Machine
end

