-- ==== Sys2Proof/Safety.lean ====
section
/-! DEFINITION. What counts as a safe state and a safe step, in the terms the statements use. -/

namespace Sys2Proof.Machine

/-- How many of the stored bytes the register `crc` covers in `ReceivingFrame` (10_state.md R31): those at offsets 0 to 2 and
those below `rx_len - 2`. -/
def State.crcCovers (s : State) : Nat := if s.rxCount < 3 then s.rxCount else min s.rxCount (s.rxLen.toNat - 2)

/-- What holds of the block whatever the host, the transport and time do. -/
structure State.Inv (s : State) : Prop where
  /-- The poll intervals are positive (00_scope.md R6). -/
  pollPositive : 0 < s.params.delayPollMs ∧ 0 < s.params.txPollMs
  /-- While an operation runs `res` is empty: nothing of an earlier result is left (10_state.md R35, R46, assumption log 11). -/
  noResultYet : s.opened = true → s.phase ≠ .idle → s.res = none
  /-- The receive buffer keeps its canonical form and its 255 bytes (20_memory.md R50, R51). -/
  rxForm : s.rxbuf.wf
  /-- The transmit buffer keeps its canonical form and its 255 bytes (20_memory.md R52). -/
  txForm : s.txbuf.wf
  /-- `rx_count` is at most 255 (10_state.md R21, R27). -/
  rxCountBound : s.rxCount ≤ Config.maxFrame
  /-- `tx_len` is at most 255 (10_state.md R21). -/
  txLenBound : s.txLen ≤ Config.maxFrame
  /-- The stamp is not in the future (10_state.md R23, 00_scope.md R9). -/
  stampPast : s.lastReq ≤ s.now
  /-- The break is asserted exactly in `Breaking` (20_memory.md R61, 10_state.md R26). -/
  breakPhase : s.breakOn = true ↔ s.opened = true ∧ s.phase = .breaking
  /-- The block never reads while a frame of its own is draining (20_memory.md R69). -/
  halfDuplex : s.receiving → s.outQueue = []
  /-- `rx_count` is 0 in every state but `ReceivingFrame` (10_state.md R27) and but `Idle`, where it is unconstrained (R21,
  assumption log 8). -/
  notCounting : s.phase ≠ .receivingFrame → s.phase ≠ .idle → s.rxCount = 0
  /-- In `ReceivingFrame`, `rx_count` runs from 1 and stays below `rx_len` (10_state.md R27), `rxbuf` starts with `SYNC`, the
  address and the declared length (10_state.md R30), and `crc` is the CRC of the bytes R31 names. -/
  framed : s.phase = .receivingFrame →
    1 ≤ s.rxCount ∧ s.rxbuf.read 0 = Config.sync ∧ (2 ≤ s.rxCount → s.rxbuf.read 1 = s.addr) ∧
    (3 ≤ s.rxCount → s.rxbuf.read 2 = s.rxLen ∧ Config.minLen ≤ s.rxLen.toNat ∧ s.rxCount < s.rxLen.toNat) ∧
    s.crc = crc16 (s.rxbuf.readBytes 0 s.crcCovers)
  /-- While an ACK drains, `rxbuf` holds the validated `Message(m)` whose `m` the block will return (42_link_protocol.md R174, R178). -/
  acked : s.phase = .ackSent →
    validateResponse s.params.incCmdCode s.rxFrame s.addr = .ok (.message s.message)
  /-- While a NACK drains, `pend_err` holds the error to surface (10_state.md R34). -/
  nacked : s.phase = .nackSent → s.pendErr ≠ none

/-- The transitions of `state` in one step of the block (42_link_protocol.md R180), a wait being a step that stays. -/
def Phase.next : Phase → List Phase
  | .idle => [.idle]
  | .delay => [.delay, .sending, .idle]
  | .sending => [.sending, .waitingEcho]
  | .waitingEcho => [.waitingEcho, .receivingFrame, .nackSent, .idle]
  | .receivingFrame => [.receivingFrame, .ackSent, .nackSent, .idle]
  | .ackSent => [.ackSent, .idle]
  | .nackSent => [.nackSent, .idle]
  | .breaking => [.breaking, .idle]

/-! ## The rows of the transition table -/

/-- The coming `T.writeAll` succeeds (20_memory.md R57): an input, see `State.writeFaults`. -/
def State.writeSucceeds (s : State) : Bool :=
  match s.writeFaults with
  | some _ :: _ => false
  | _ => true

/-- The whole frame, the byte read being its last (42_link_protocol.md R172, R173). -/
def State.frameWith (s : State) (b : Byte) : List Byte := (s.rxbuf.write s.rxCount b).readBytes 0 s.rxLen.toNat

/-- The byte `b` at the head of the input queue is the last byte of the frame in `ReceivingFrame` (42_link_protocol.md R172). -/
def State.lastByteIs (s : State) (b : Byte) : Prop :=
  s.phase = .receivingFrame ∧ s.inQueue.head? = some b ∧ 3 ≤ s.rxCount ∧ s.rxCount + 1 = s.rxLen.toNat

/-- The event of each row of 42_link_protocol.md R180 that calls `fail_rx`, with its error (R168, R170, R171, R173). -/
inductive FailsWith (s : State) : Err → Prop
  /-- The read returns `Timeout`. -/
  | timeout (hr : s.receiving) (hd : s.rxDeadline ≤ s.now) : FailsWith s .readTimeout
  /-- The second byte differs from `ADDR`. -/
  | address (b : Byte) (hp : s.phase = .receivingFrame) (hq : s.inQueue.head? = some b) (hc : s.rxCount = 1)
      (hb : b ≠ s.addr) : FailsWith s (.addressMismatch b)
  /-- The third byte is below 6. -/
  | length (b : Byte) (hp : s.phase = .receivingFrame) (hq : s.inQueue.head? = some b) (hc : s.rxCount = 2)
      (hb : b.toNat < 6) : FailsWith s (.frameTooShort b.toNat)
  /-- The last byte is read and the CRC differs from the carried one. -/
  | integrity (b : Byte) (hl : s.lastByteIs b) (hc : crc16 (protectedPart (s.frameWith b)) ≠ carriedCrc (s.frameWith b)) :
      FailsWith s (.integrityError (crc16 (protectedPart (s.frameWith b))) (carriedCrc (s.frameWith b)))

/-- The last byte is read, the CRC matches, and the frame is of class `r` (42_link_protocol.md R173, R174). -/
def State.validatedAs (s : State) (r : Response) : Prop :=
  ∃ b, s.lastByteIs b ∧ crc16 (protectedPart (s.frameWith b)) = carriedCrc (s.frameWith b) ∧
    classifyFrame s.params.incCmdCode (s.frameWith b) = r

/-- One row of the table of 42_link_protocol.md R180 that changes `state` from that of `s` to that of `t` without the host: the
state it is in, the event, the state it goes to, and the result where there is one (in `res`, decoded for the operation in
flight). -/
inductive TransitionRow (s t : State) : Prop
  | payloadTooLarge (hp : s.phase = .delay) (hf : s.lastReq + 150 ≤ s.now) (hl : 250 < s.curPayload.length)
      (hs : t.lastReq = s.now) (ht : t.phase = .idle) (hr : t.res = some (.err (.payloadTooLarge s.curPayload.length)))
  | requestWritten (hp : s.phase = .delay) (hf : s.lastReq + 150 ≤ s.now) (hl : s.curPayload.length ≤ 249)
      (hw : s.writeSucceeds = true) (hs : t.lastReq = s.now) (ht : t.phase = .sending)
  | requestNotWritten (hp : s.phase = .delay) (hf : s.lastReq + 150 ≤ s.now) (hl : s.curPayload.length ≤ 249)
      (hw : s.writeSucceeds = false) (hs : t.lastReq = s.now) (ht : t.phase = .idle)
      (hr : t.res = some (.err .writeFailure))
  | requestDrained (hp : s.phase = .sending) (hq : s.outQueue = []) (ht : t.phase = .waitingEcho)
  | syncRead (hp : s.phase = .waitingEcho) (hq : s.inQueue.head? = some 0x02#8) (ht : t.phase = .receivingFrame)
  | bareResponse (r : Response) (hv : s.validatedAs r) (hr : r ∈ [.ack, .nack, .incrementCommand]) (ht : t.phase = .idle)
      (he : t.res = some (decodeFor s.params s.curOp r))
  | ackWritten (m : List Byte) (hv : s.validatedAs (.message m)) (hw : s.writeSucceeds = true) (ht : t.phase = .ackSent)
      (hm : t.message = m)
  | ackNotWritten (m : List Byte) (hv : s.validatedAs (.message m)) (hw : s.writeSucceeds = false) (ht : t.phase = .idle)
      (hr : t.res = some (.err .writeFailure))
  | nackWritten (e : Err) (hf : FailsWith s e) (hn : e = .readTimeout → s.params.nackOnTimeout = true)
      (hw : s.writeSucceeds = true) (ht : t.phase = .nackSent) (he : t.pendErr = some e)
  | nackNotWritten (e : Err) (hf : FailsWith s e) (hn : e = .readTimeout → s.params.nackOnTimeout = true)
      (hw : s.writeSucceeds = false) (ht : t.phase = .idle) (hr : t.res = some (.err e))
  | quietTimeout (hf : FailsWith s .readTimeout) (hn : s.params.nackOnTimeout = false) (ht : t.phase = .idle)
      (hr : t.res = some (.err .readTimeout))
  | ackDrained (hp : s.phase = .ackSent) (hq : s.outQueue = []) (ht : t.phase = .idle)
      (hr : t.res = some (decodeFor s.params s.curOp (.message s.message)))
  | nackDrained (e : Err) (hp : s.phase = .nackSent) (hq : s.outQueue = []) (he : s.pendErr = some e) (ht : t.phase = .idle)
      (hr : t.res = some (.err e))
  | breakEnded (hp : s.phase = .breaking) (hb : s.breakUntil ≤ s.now) (hc : t.breakOn = false) (ht : t.phase = .idle)
      (hr : t.res = some (.ok .unit))

/-- A byte read now is no tie (41_transport_governor.md R153): the deadline has not passed. -/
abbrev State.inTime (s : State) : Prop := s.now < s.rxDeadline

/-- A run of `n` steps that meets no fault and no refusal ends in this state. -/
def runTo : Nat → State → Option State
  | 0, s => some s
  | n + 1, s =>
    match step s with
    | .next t => runTo n t
    | .fault _ => none
    | .refused _ => none

/-! ## Terms of the statements -/

/-- The six-byte frame of the master with command byte `c` to address `a`, written out (30_encoding.md R81, R83, R90). -/
def sixByteFrame (a c : Byte) : List Byte :=
  let body : List Byte := [0x02#8, a, 0x06#8, c]
  body ++ [lowByte (crc16 body), highByte (crc16 body)]

/-- The number of a Unicode scalar value: below 0x110000 and no surrogate. -/
def isScalar (n : Nat) : Prop := n < 0xD800 ∨ 0xE000 ≤ n ∧ n < 0x110000

/-- The UTF-8 bytes of a scalar value, by the Unicode standard (assumption log 7). -/
def utf8Of (n : Nat) : List Byte :=
  if n < 0x80 then [BitVec.ofNat 8 n]
  else if n < 0x800 then [BitVec.ofNat 8 (0xC0 + n / 64), BitVec.ofNat 8 (0x80 + n % 64)]
  else if n < 0x10000 then
    [BitVec.ofNat 8 (0xE0 + n / 4096), BitVec.ofNat 8 (0x80 + n / 64 % 64), BitVec.ofNat 8 (0x80 + n % 64)]
  else
    [BitVec.ofNat 8 (0xF0 + n / 262144), BitVec.ofNat 8 (0x80 + n / 4096 % 64), BitVec.ofNat 8 (0x80 + n / 64 % 64),
      BitVec.ofNat 8 (0x80 + n % 64)]

/-- The bytes are the UTF-8 of some text: what log 7 presumes "malformed UTF-8" (43_response_decoder.md R229) is not. -/
def isUtf8Text (bytes : List Byte) : Prop := ∃ text : List Nat, (∀ n ∈ text, isScalar n) ∧ bytes = text.flatMap utf8Of

/-- `m'` is `m` with the bytes `f` at the offsets from 0 and every other offset unchanged, in canonical form. -/
def Memory.loaded (m : Memory) (f : List Byte) (m' : Memory) : Prop :=
  m'.wf ∧ m'.readBytes 0 f.length = f ∧ ∀ a, f.length ≤ a → m'.read a = m.read a

/-- `m'` is `m` with the byte `b` at offset `a` and every other offset unchanged, in canonical form. -/
def Memory.stored (m : Memory) (a : Nat) (b : Byte) (m' : Memory) : Prop :=
  m'.wf ∧ m'.read a = b ∧ ∀ k, k ≠ a → m'.read k = m.read k

/-- A constructed block that accepts an operation (10_state.md R41, R43). -/
abbrev State.ready (s : State) : Prop := s.opened = true ∧ s.phase = .idle

/-- A constructed block in the receive phase, at the start of a frame: hunting for `SYNC`, nothing waiting in the input queue,
the deadline not passed (42_link_protocol.md R166, R168). -/
structure State.hunts (s : State) : Prop where
  block : s.opened = true
  hunting : s.phase = .waitingEcho
  noStale : s.inQueue = []
  early : s.inTime
  rxForm : s.rxbuf.wf
  txForm : s.txbuf.wf

/-- The deadline of the next read after a byte is read now (41_transport_governor.md R152), which `rx_deadline` holds (assumption
log 24). -/
def State.nextDeadline (s : State) : Nat :=
  match s.params.rxTimeoutScope with
  | .wholeReceive => s.rxDeadline
  | .perByte => s.now + 2000

/-- The instructions that issue the request in flight: step 1 of an exchange, and the row of the six-byte frame it sends
(42_link_protocol.md R162 to R165, 30_encoding.md R89). -/
def issuesRequest (i : Instr) (s : State) : Prop :=
  let frame (cmd a : Byte) : Prop := s.curCmd = cmd ∧ s.curPayload = [] ∧ a = s.addr
  match i with
  | .delayBeforeRequest => True
  | .reqGetStatus a => frame 0x31#8 a
  | .reqPoll a => frame 0x33#8 a
  | .reqStack a => frame 0x35#8 a
  | .reqReturn a => frame 0x36#8 a
  | .reqExtIdent a => frame 0x3E#8 a
  | .reqGetBillTable a => frame 0x41#8 a
  | .reqRecCassetteStatus a => frame 0x70#8 a
  | _ => False

end Sys2Proof.Machine
end

