-- ==== Sys2Proof/Certificates/Slice0/Obligations.lean ====
section
/-! DEFINITION. The statements for the provers. Each names in its docstring the rule of spec/ it formalises; where a clause is the
model's choice the docstring names the assumption log. The statements about a pure unit function take every state: that such a row,
presented by itself, runs in every state and leaves its value in `ret` is the model's choice (assumption log 9, 27). -/

open Sys2Proof Sys2Proof.Machine

/-! ## FrameCodec -/

/-- 40_frame_codec.md R110, R111: `crc16` starts from 0 and updates the register byte by byte, first byte first; `crc_update` is
the XOR into the low byte and eight shift-and-conditional-XOR iterations. Both functions return their value and touch no
register. -/
def Obligations.CrcFunctions : Prop :=
  (∀ (bytes : List Byte) (s : State),
    exec (.crc16 bytes) s = .next { s with ret := some (.word (bytes.foldl crcUpdate 0x0000#16)) }) ∧
  (∀ (c : Word16) (b : Byte) (s : State),
    exec (.crcUpdate c b) s = .next { s with
      ret := some (.word ((fun x : Word16 => if x.getLsbD 0 then (x >>> 1) ^^^ 0x8408#16 else x >>> 1)^[8]
        (c ^^^ b.setWidth 16))) })

/-- 40_frame_codec.md R112, the running form: `crc16(s ++ [b]) = crc_update(crc16(s), b)`. -/
def Obligations.CrcRunningForm : Prop :=
  ∀ (s : List Byte) (b : Byte), crc16 (s ++ [b]) = crcUpdate (crc16 s) b

/-- 40_frame_codec.md R113: the bit-serial form and the split form give the value of R111 for every register and byte. -/
def Obligations.CrcEquivalentForms : Prop :=
  ∀ (c : Word16) (b : Byte), crcBitSerial b 8 0 c = crcUpdate c b ∧ crcSplit c b = crcUpdate c b

/-- 40_frame_codec.md R115: (b) the CRC is linear over XOR; (c) a byte list followed by two bytes ends at 0x0000 exactly when the
two bytes are its CRC, low byte first; (d) `crc_update` is a bijection on the register for a fixed byte, and no frame with one
bit flipped keeps a matching CRC. (a), the width, is the type. -/
def Obligations.CrcLaws : Prop :=
  (∀ s t : List Byte, s.length = t.length →
    crc16 (List.zipWith (fun x y : Byte => x ^^^ y) s t) = crc16 s ^^^ crc16 t) ∧
  (∀ (s : List Byte) (x y : Byte),
    crc16 (s ++ [x, y]) = 0x0000#16 ↔ x = lowByte (crc16 s) ∧ y = highByte (crc16 s)) ∧
  (∀ b : Byte, Function.Bijective fun c => crcUpdate c b) ∧
  (∀ (body : List Byte) (k j : Nat), k < (sealFrame body).length → j < 8 →
    let flipped := (sealFrame body).set k ((sealFrame body).getD k 0 ^^^ (1#8 <<< j))
    crc16 (protectedPart flipped) ≠ carriedCrc flipped)

/-- 40_frame_codec.md R116, R117: `encode` presented in `Idle`. More than 250 payload bytes are `PayloadTooLarge` before anything is
built; exactly 250 are refused; up to 249 give the frame, which is returned and stands in `txbuf`, with `crc` as working storage
(10_state.md R21). -/
def Obligations.EncodeResult : Prop :=
  ∀ (s : State) (a c : Byte) (p : List Byte), s.ready → s.txbuf.wf →
    (250 < p.length →
      exec (.encode a c p) s = .next { s with ret := some (.outcome (.err (.payloadTooLarge p.length))) }) ∧
    (p.length = 250 → exec (.encode a c p) s = .refused .payload250) ∧
    (p.length ≤ 249 →
      let body : List Byte := [0x02#8, a, BitVec.ofNat 8 (p.length + 6), c] ++ p
      let f : List Byte := body ++ [lowByte (crc16 body), highByte (crc16 body)]
      ∃ m, s.txbuf.loaded f m ∧
        exec (.encode a c p) s =
          .next { s with txbuf := m, txLen := p.length + 6, crc := crc16 body, ret := some (.bytes f) })

/-- 30_encoding.md R82, R83: `LEN` of a frame of the master is its total byte count, payload + 6, from 6 to 255; the CRC field is the
CRC of every byte before it, low byte first. -/
def Obligations.RequestFrameFormat : Prop :=
  ∀ (a c : Byte) (p : List Byte), p.length ≤ 249 →
    let f := requestFrame a c p
    f.length = p.length + 6 ∧ 6 ≤ f.length ∧ f.length ≤ 255 ∧
    f.getD 0 0 = 0x02#8 ∧ f.getD 1 0 = a ∧ (f.getD 2 0).toNat = f.length ∧ f.getD 3 0 = c ∧
    (∀ k, k < p.length → f.getD (k + 4) 0 = p.getD k 0) ∧
    f.getD (f.length - 2) 0 = (crc16 (f.take (f.length - 2))).setWidth 8 ∧
    f.getD (f.length - 1) 0 = (crc16 (f.take (f.length - 2)) >>> 8).setWidth 8

/-- 40_frame_codec.md R120 to R123, R125: `decodeResponse` tests the size, the address, the declared length and the CRC in that order,
and the first test that fails is the error; a frame that passes is classified. -/
def Obligations.DecodeResponseResult : Prop :=
  ∀ (s : State) (bytes : List Byte) (a : Byte),
    let answer (r : Result) : Prop := exec (.decodeResponse bytes a) s = .next { s with ret := some (.outcome r) }
    let computed := crc16 (bytes.take (bytes.length - 2))
    let carried := le16 (bytes.getD (bytes.length - 2) 0) (bytes.getD (bytes.length - 1) 0)
    (bytes.length < 3 → answer (.err (.frameTooShort bytes.length))) ∧
    (3 ≤ bytes.length → bytes.getD 1 0 ≠ a → answer (.err (.addressMismatch (bytes.getD 1 0)))) ∧
    (3 ≤ bytes.length → bytes.getD 1 0 = a → (bytes.getD 2 0).toNat < 6 →
      answer (.err (.frameTooShort (bytes.getD 2 0).toNat))) ∧
    (3 ≤ bytes.length → bytes.getD 1 0 = a → 6 ≤ (bytes.getD 2 0).toNat → bytes.length < 6 →
      answer (.err (.frameTooShort bytes.length))) ∧
    (6 ≤ bytes.length → bytes.getD 1 0 = a → 6 ≤ (bytes.getD 2 0).toNat → computed ≠ carried →
      answer (.err (.integrityError computed carried))) ∧
    (6 ≤ bytes.length → bytes.getD 1 0 = a → 6 ≤ (bytes.getD 2 0).toNat → computed = carried →
      answer (.ok (.response (classifyFrame s.params.incCmdCode bytes))))

/-- 40_frame_codec.md R124: a frame of 6 bytes is `Ack`, `Nack`, `IncrementCommand` or a one-byte `Message` by its byte at offset 3, in
that order; a longer one is a `Message` of the bytes from offset 3 up to the CRC, never empty. Fewer than 6 bytes are refused: the
function is "called only on a frame that passed". -/
def Obligations.ClassifyResult : Prop :=
  ∀ (s : State) (bytes : List Byte),
    let answer (r : Response) : Prop := exec (.classify bytes) s = .next { s with ret := some (.response r) }
    let d := bytes.getD 3 0
    (bytes.length < 6 → exec (.classify bytes) s = .refused .notAFrame) ∧
    (bytes.length = 6 → d = 0x00#8 → answer .ack) ∧
    (bytes.length = 6 → d = 0xFF#8 → answer .nack) ∧
    (bytes.length = 6 → d ≠ 0x00#8 → d ≠ 0xFF#8 → d = s.params.incCmdCode → answer .incrementCommand) ∧
    (bytes.length = 6 → d ≠ 0x00#8 → d ≠ 0xFF#8 → d ≠ s.params.incCmdCode → answer (.message [d])) ∧
    (6 < bytes.length → ∃ m : List Byte, m.length = bytes.length - 5 ∧
      (∀ k, k < m.length → m.getD k 0 = bytes.getD (k + 3) 0) ∧ answer (.message m))

/-- 40_frame_codec.md R126: `encodeResponseFrame` gives the frame of a message body of 1 to 250 bytes, and is defined for no other. -/
def Obligations.EncodeResponseFrameResult : Prop :=
  ∀ (s : State) (a : Byte) (data : List Byte),
    (1 ≤ data.length ∧ data.length ≤ 250 →
      let body : List Byte := [0x02#8, a, BitVec.ofNat 8 (data.length + 5)] ++ data
      exec (.encodeResponseFrame a data) s =
        .next { s with ret := some (.bytes (body ++ [lowByte (crc16 body), highByte (crc16 body)])) }) ∧
    (data.length = 0 ∨ 250 < data.length → exec (.encodeResponseFrame a data) s = .refused .responseBodyLength)

/-- 40_frame_codec.md R127, the round-trip law: at every length, with the three exceptions at length 1, and no legal frame at
length 0. -/
def Obligations.ResponseRoundTrip : Prop :=
  ∀ (inc a : Byte) (data : List Byte), data.length ≤ 250 →
    let answer := validateResponse inc (responseFrame a data) a
    (2 ≤ data.length → answer = .ok (.message data)) ∧
    (∀ d, data = [d] → answer =
      .ok (if d = 0x00#8 then .ack else if d = 0xFF#8 then .nack else if d = inc then .incrementCommand
        else .message [d])) ∧
    (data = [] → answer = .error (.frameTooShort 5))

/-! ## ResponseDecoder -/

/-- 43_response_decoder.md R201, R202: every decoder turns `Nack` and `IncrementCommand` into an error of the command attempted, and the
five that expect a `Message` turn `Ack` into `UnexpectedResponse`. -/
def Obligations.CommonRejections : Prop :=
  ∀ (s : State) (cmd : Byte),
    let gives (i : Instr) (e : Err) : Prop := exec i s = .next { s with ret := some (.outcome (.err e)) }
    (gives (.decodeStatus .nack) (.nackReceived 0x33#8) ∧ gives (.decodeBillOptions .nack) (.nackReceived 0x33#8) ∧
      gives (.decodeBillTable .nack) (.nackReceived 0x41#8) ∧ gives (.decodeInfo .nack) (.nackReceived 0x3E#8) ∧
      gives (.decodeCassetteStatus .nack) (.nackReceived 0x70#8) ∧
      gives (.expectAck cmd .nack) (.nackReceived cmd)) ∧
    (gives (.decodeStatus .incrementCommand) (.incrementCommandReceived 0x33#8) ∧
      gives (.decodeBillOptions .incrementCommand) (.incrementCommandReceived 0x33#8) ∧
      gives (.decodeBillTable .incrementCommand) (.incrementCommandReceived 0x41#8) ∧
      gives (.decodeInfo .incrementCommand) (.incrementCommandReceived 0x3E#8) ∧
      gives (.decodeCassetteStatus .incrementCommand) (.incrementCommandReceived 0x70#8) ∧
      gives (.expectAck cmd .incrementCommand) (.incrementCommandReceived cmd)) ∧
    (gives (.decodeStatus .ack) (.unexpectedResponse 0x33#8) ∧
      gives (.decodeBillOptions .ack) (.unexpectedResponse 0x33#8) ∧
      gives (.decodeBillTable .ack) (.unexpectedResponse 0x41#8) ∧ gives (.decodeInfo .ack) (.unexpectedResponse 0x3E#8) ∧
      gives (.decodeCassetteStatus .ack) (.unexpectedResponse 0x70#8))

/-- 43_response_decoder.md R203, R205: `decodeStatus` of a message body. -/
def Obligations.StatusDecoding : Prop :=
  ∀ (s : State) (more : List Byte),
    let gives (p : List Byte) (r : Result) : Prop :=
      exec (.decodeStatus (.message p)) s = .next { s with ret := some (.outcome r) }
    gives [] (.err .emptyStatus) ∧
    gives (0x10#8 :: more) (.ok (.status .powerUp)) ∧ gives (0x13#8 :: more) (.ok (.status .initializing)) ∧
    gives (0x14#8 :: more) (.ok (.status .idling)) ∧ gives (0x19#8 :: more) (.ok (.status .disabled)) ∧
    gives (0x1A#8 :: more) (.ok (.status .holding)) ∧ gives [0x1C#8] (.ok (.status (.rejecting none))) ∧
    (∀ r, gives (0x1C#8 :: r :: more) (.ok (.status (.rejecting (some r))))) ∧
    gives (0x1D#8 :: more) (.ok (.status .dispensing)) ∧ gives (0x41#8 :: more) (.ok (.status .cassetteFull)) ∧
    gives (0x42#8 :: more) (.ok (.status .cassetteRemoved)) ∧ gives [0x80#8] (.err .missingBillType) ∧
    (∀ t, gives (0x80#8 :: t :: more) (.ok (.status (.escrow t)))) ∧
    (∀ c, c ∉ [0x10#8, 0x13#8, 0x14#8, 0x19#8, 0x1A#8, 0x1C#8, 0x1D#8, 0x41#8, 0x42#8, 0x80#8] →
      gives (c :: more) (.ok (.status (.other c))))

/-- 30_encoding.md R93 with 43_response_decoder.md R204 to R206: what each of the 27 status rows decodes to, in `Idle`, and how each
stops elsewhere. That the row presented by itself puts the result in `res`, and that it stops with `callWhileBusy` outside `Idle`
and with `noBlock` before construction, is the model's choice (assumption log 16). -/
def Obligations.StatusRows : Prop :=
  (∀ (s : State) (more : List Byte) (c : Byte),
    ∀ row ∈ [Instr.statusPowerUp, .statusInitialize, .statusIdling, .statusAccepting, .statusStacking, .statusReturning,
        .statusDisabled, .statusHolding, .statusBusy, .statusRejecting, .statusDispensing, .statusUploading,
        .statusSettingTypeCassette, .statusDispensed, .statusUnloaded, .statusInvalidBillNumber, .statusSetCassetteType,
        .statusInvalidCommand, .statusDropCassetteFull, .statusDropCassetteRemoved, .statusJamInAcceptor, .statusJamInStacker,
        .statusCheated, .statusEscrow, .statusPacked, .statusReturned, .statusOther c],
      (s.opened = false → exec (row more) s = .fault .noBlock) ∧
      (s.opened = true → s.phase ≠ .idle → exec (row more) s = .fault .callWhileBusy)) ∧
  ∀ (s : State) (more : List Byte), s.ready →
    let gives (i : Instr) (r : Result) : Prop := exec i s = .next { s with res := some r }
    let plain (i : Instr) (v : Status) : Prop := gives i (.ok (.status v))
    plain (.statusPowerUp more) .powerUp ∧ plain (.statusInitialize more) .initializing ∧
    plain (.statusIdling more) .idling ∧ plain (.statusAccepting more) (.other 0x15#8) ∧
    plain (.statusStacking more) (.other 0x17#8) ∧ plain (.statusReturning more) (.other 0x18#8) ∧
    plain (.statusDisabled more) .disabled ∧ plain (.statusHolding more) .holding ∧
    plain (.statusBusy more) (.other 0x1B#8) ∧ plain (.statusRejecting more) (.rejecting more.head?) ∧
    plain (.statusDispensing more) .dispensing ∧ plain (.statusUploading more) (.other 0x1E#8) ∧
    plain (.statusSettingTypeCassette more) (.other 0x21#8) ∧ plain (.statusDispensed more) (.other 0x25#8) ∧
    plain (.statusUnloaded more) (.other 0x26#8) ∧ plain (.statusInvalidBillNumber more) (.other 0x28#8) ∧
    plain (.statusSetCassetteType more) (.other 0x29#8) ∧ plain (.statusInvalidCommand more) (.other 0x30#8) ∧
    plain (.statusDropCassetteFull more) .cassetteFull ∧ plain (.statusDropCassetteRemoved more) .cassetteRemoved ∧
    plain (.statusJamInAcceptor more) (.other 0x43#8) ∧ plain (.statusJamInStacker more) (.other 0x44#8) ∧
    plain (.statusCheated more) (.other 0x45#8) ∧
    gives (.statusEscrow []) (.err .missingBillType) ∧ (∀ t, plain (.statusEscrow (t :: more)) (.escrow t)) ∧
    plain (.statusPacked more) (.other 0x81#8) ∧ plain (.statusReturned more) (.other 0x82#8) ∧
    (∀ c, c ∉ namedStatusCodes → plain (.statusOther c more) (.other c))

/-- 43_response_decoder.md R212: `unpack24` gives 24 elements, element `i` being bit `i mod 8` of byte `i div 8`. -/
def Obligations.Unpack24Result : Prop :=
  ∀ (s : State) (b0 b1 b2 : Byte), ∃ e : List Bool,
    exec (.unpack24 b0 b1 b2) s = .next { s with ret := some (.bits e) } ∧ e.length = 24 ∧
    ∀ i, i < 24 → e.getD i false = ([b0, b1, b2].getD (i / 8) 0).getLsbD (i % 8)

/-- 43_response_decoder.md R210: bill options need exactly 24 bytes; the three arrays of 24 elements come from three bytes each at
`BILLOPT_OFFSETS`. -/
def Obligations.BillOptionsDecoding : Prop :=
  ∀ (s : State) (p : List Byte),
    (p.length ≠ 24 →
      exec (.decodeBillOptions (.message p)) s =
        .next { s with ret := some (.outcome (.err (.unexpectedLength p.length (some 24)))) }) ∧
    (p.length = 24 → ∃ o : BillOptions,
      exec (.decodeBillOptions (.message p)) s = .next { s with ret := some (.outcome (.ok (.billOptions o))) } ∧
      o.acceptable.length = 24 ∧ o.security.length = 24 ∧ o.routing.length = 24 ∧
      ∀ i, i < 24 →
        o.acceptable.getD i false =
          (p.getD (s.params.billOptOffsets.acceptable.val + i / 8) 0).getLsbD (i % 8) ∧
        o.security.getD i false = (p.getD (s.params.billOptOffsets.security.val + i / 8) 0).getLsbD (i % 8) ∧
        o.routing.getD i false = (p.getD (s.params.billOptOffsets.routing.val + i / 8) 0).getLsbD (i % 8))

/-- 43_response_decoder.md R215: two bytes per cassette, `present` bit 7 and `full` bit 6 of the first, the count the second; an odd
length is an error. -/
def Obligations.CassetteDecoding : Prop :=
  ∀ (s : State) (p : List Byte),
    (p.length % 2 = 1 →
      exec (.decodeCassetteStatus (.message p)) s =
        .next { s with ret := some (.outcome (.err (.unexpectedLength p.length none))) }) ∧
    (p.length % 2 = 0 → ∃ l : List CassetteStatus,
      exec (.decodeCassetteStatus (.message p)) s = .next { s with ret := some (.outcome (.ok (.cassettes l))) } ∧
      l.length = p.length / 2 ∧
      ∀ k, k < p.length / 2 → l[k]? = some { present := (p.getD (2 * k) 0).getLsbD 7
                                             full := (p.getD (2 * k) 0).getLsbD 6
                                             billCount := p.getD (2 * k + 1) 0 })

/-- 43_response_decoder.md R220, R221: five bytes per entry; byte 0 and byte 4 are the denomination's, bytes 1 to 3 the country code in
payload order; a length that is no multiple of 5 is an error. -/
def Obligations.BillTableDecoding : Prop :=
  ∀ (s : State) (p : List Byte),
    (p.length % 5 ≠ 0 →
      exec (.decodeBillTable (.message p)) s =
        .next { s with ret := some (.outcome (.err (.unexpectedLength p.length none))) }) ∧
    (p.length % 5 = 0 → ∃ l : List BillDescription,
      exec (.decodeBillTable (.message p)) s = .next { s with ret := some (.outcome (.ok (.billTable l))) } ∧
      l.length = p.length / 5 ∧
      ∀ k, k < p.length / 5 →
        l[k]? = some { denomination := denomOf (p.getD (5 * k) 0) (p.getD (5 * k + 4) 0)
                       countryCode := [p.getD (5 * k + 1) 0, p.getD (5 * k + 2) 0, p.getD (5 * k + 3) 0] })

/-- 43_response_decoder.md R222: `denom(base, e)` is `base * 10^x` where bit 7 of `e` is clear and `base / 10^x` where it is set, with
`x` the low seven bits; the value is exact (R223). -/
def Obligations.DenominationValue : Prop :=
  ∀ (s : State) (base e : Byte), ∃ d : Denomination,
    exec (.denom base e) s = .next { s with ret := some (.denomination d) } ∧
    (e.toNat < 128 → d.value = (base.toNat : ℚ) * 10 ^ e.toNat) ∧
    (128 ≤ e.toNat → d.value = (base.toNat : ℚ) / 10 ^ (e.toNat - 128))

/-- 43_response_decoder.md R226 to R229: an identification record needs exactly 109 bytes. With no `INFO_LAYOUT` the bytes are returned
undecoded; with one, every field of the layout is decoded: the asset number is the big-endian number of the eight bytes at
its offset, a text field is its bytes where they are the UTF-8 of some text and `UNKNOWN` where they are not, while the others
are untouched. What counts as well-formed UTF-8 is presumed: the encodings of the Unicode standard's scalar values, one after the
other (`isUtf8Text`, assumption log 7). -/
def Obligations.InfoDecoding : Prop :=
  ∀ (s : State) (p : List Byte),
    (p.length ≠ 109 →
      exec (.decodeInfo (.message p)) s =
        .next { s with ret := some (.outcome (.err (.unexpectedLength p.length (some 109)))) }) ∧
    (p.length = 109 → ∃ v : Info,
      exec (.decodeInfo (.message p)) s = .next { s with ret := some (.outcome (.ok (.info v))) } ∧ v.raw = p ∧
      (s.params.infoLayout = none → v.fields = []) ∧
      (∀ fs : List InfoField, s.params.infoLayout = some fs →
        v.fields.length = fs.length ∧
        ∀ (k : Nat) (f : InfoField), fs[k]? = some f →
          (f.name = .assetNumber → f.offset + 8 ≤ 109 →
            v.fields[k]? = some (.assetNumber, .number
              (∑ j ∈ Finset.range 8, (p.getD (f.offset + j) 0).toNat * 256 ^ (7 - j)))) ∧
          (f.name ≠ .assetNumber →
            let bytes := (p.drop f.offset).take f.length
            (isUtf8Text bytes → v.fields[k]? = some (f.name, .text bytes)) ∧
            (¬ isUtf8Text bytes →
              v.fields[k]? = some (f.name, .text [0x55#8, 0x4E#8, 0x4B#8, 0x4E#8, 0x4F#8, 0x57#8, 0x4E#8])))))

/-- 43_response_decoder.md R232: `expectAck` accepts a bare `Ack` and nothing else. -/
def Obligations.ExpectAckResult : Prop :=
  ∀ (s : State) (cmd : Byte) (p : List Byte),
    let gives (r : Response) (v : Result) : Prop :=
      exec (.expectAck cmd r) s = .next { s with ret := some (.outcome v) }
    gives .ack (.ok .unit) ∧ gives (.message p) (.err (.unexpectedMessage cmd p)) ∧
    gives .nack (.err (.nackReceived cmd)) ∧ gives .incrementCommand (.err (.incrementCommandReceived cmd))

/-- 30_encoding.md R99, 43_response_decoder.md R200: the decoder that ends an operation is the one of the operation that was issued:
for each operation, the decoder's own row returns what the operation's result will be. -/
def Obligations.DecoderByOperation : Prop :=
  ∀ (s : State) (r : Response),
    let same (op : Op) (i : Instr) : Prop :=
      exec i s = .next { s with ret := some (.outcome (decodeFor s.params op r)) }
    decodeFor s.params .exchange r = .ok (.response r) ∧
    same .poll (.decodeStatus r) ∧ same .getBillOptions (.decodeBillOptions r) ∧
    same .getBillTable (.decodeBillTable r) ∧ same .info (.decodeInfo r) ∧
    same .cassetteStatus (.decodeCassetteStatus r) ∧ same .stackBill (.expectAck 0x35#8 r) ∧
    same .returnBill (.expectAck 0x36#8 r)

/-! ## DeviceController and construction -/

/-- 42_link_protocol.md R161, 44_device_controller.md R241 to R247: an exchange is accepted in `Idle`; `state` becomes `Delay`, `cur_cmd` the
command of the operation, `pend_err` none, and `rx_count` is 0 (10_state.md R27). Nothing is said of `res` (assumption log 11). -/
def Obligations.ExchangeAccepted : Prop :=
  ∀ (s : State) (cmd : Byte) (payload : List Byte), s.ready →
    let accepted (i : Instr) (op : Op) (c : Byte) (p : List Byte) : Prop := ∃ r,
      exec i s = .next { s with phase := .delay, curCmd := c, pendErr := none, curOp := op
                                curPayload := p, res := r, rxCount := 0 }
    accepted (.exchange cmd payload) .exchange cmd payload ∧
    accepted .poll .poll 0x33#8 [] ∧ accepted .getBillOptions .getBillOptions 0x33#8 [] ∧
    accepted .getBillTable .getBillTable 0x41#8 [] ∧ accepted .info .info 0x3E#8 [] ∧
    accepted .cassetteStatus .cassetteStatus 0x70#8 [] ∧ accepted .stackBill .stackBill 0x35#8 [] ∧
    accepted .returnBill .returnBill 0x36#8 []

/-- 10_state.md R43, R41: a host operation has a next state only where a constructed block is `Idle`; `construct` has one only before
the block exists (R41, R42; that a second construction stops is the model's choice, assumption log 15). -/
def Obligations.OperationsOnlyInIdle : Prop :=
  ∀ (s t : State) (cmd : Byte) (payload : List Byte) (path : String) (a : Byte) (b : Baud),
    (∀ i ∈ [Instr.exchange cmd payload, .poll, .getBillOptions, .getBillTable, .info, .cassetteStatus, .stackBill,
        .returnBill, .resetAll], exec i s = .next t → s.ready) ∧
    (exec (.construct path a b) s = .next t → s.opened = false)

/-- 41_transport_governor.md R149, R150, 44_device_controller.md R248: `resetAll` and `resetLink` in `Idle` assert the break and set
`break_until` to now + 250; before that time the break is held; from it on it is released and the operation returns unit.
`last_req`, the queues and every other register stay, but for `rx_count`: 0 in `Breaking` (10_state.md R27) and unconstrained in
`Idle` (R21, the free value of assumption log 8). Outside `Idle` and `Breaking` `resetLink` has no next state. That `resetLink`
presented by itself in `Idle` does what `resetAll` does, `resetAll` in flight and the result in `res`, is the model's choice (assumption
log 26). -/
def Obligations.LinkBreak : Prop :=
  ∀ (s : State),
    (s.ready → ∃ r, ∀ i ∈ [Instr.resetAll, .resetLink],
      exec i s = .next { s with breakOn := true, breakUntil := s.now + 250, phase := .breaking, curOp := .resetAll
                                res := r, rxCount := 0 }) ∧
    (s.opened = true → s.phase = .breaking → s.now < s.breakUntil → exec .resetLink s = .next s) ∧
    (s.opened = true → s.phase = .breaking → s.breakUntil ≤ s.now →
      exec .resetLink s = .next { s with breakOn := false, phase := .idle, res := some (.ok .unit)
                                         rxCount := s.idleRxCount, ended := s.ended + 1 }) ∧
    (∀ t, exec .resetLink s = .next t → s.ready ∨ s.opened = true ∧ s.phase = .breaking)

/-- 70_reset_and_hazards.md R301, 10_state.md R41, 20_memory.md R56: what a successful `construct` leaves; what R301 calls unspecified is
left as it was. `State.reset` is such a state (its address, rate, time and path are the model's choice, assumption log 3, and the
leftover zeros, log 1). -/
def Obligations.ConstructSuccess : Prop :=
  (∀ (s : State) (path : String) (a : Byte) (b : Baud), s.opened = false → s.openOk = true →
    exec (.construct path a b) s =
      .next { s with
        addr := a, baud := b, opened := true, lastReq := s.now, phase := .idle, rxCount := 0, pendErr := none
        res := none, outQueue := [], breakOn := false
        port := some { path := path, rate := match b with | .slow => 9600 | .fast => 19200
                       parity := .none, flow := .none, readTimeout := 2000 } }) ∧
  (∃ (s : State) (path : String) (a : Byte) (b : Baud), s.opened = false ∧ s.openOk = true ∧
    exec (.construct path a b) s = .next State.reset)

/-- 10_state.md R41, 70_reset_and_hazards.md R302: after a failed `construct` there is no block: the error is returned (in `res`, the model's
choice, assumption log 15), nothing else changes, and no operation of a block has a next state. -/
def Obligations.ConstructFailure : Prop :=
  ∀ (s : State) (path : String) (a : Byte) (b : Baud), s.opened = false → s.openOk = false →
    exec (.construct path a b) s = .next { s with res := some (.err .openFailure) } ∧
    ∀ (cmd : Byte) (payload : List Byte),
      ∀ i ∈ [Instr.exchange cmd payload, .poll, .getBillOptions, .getBillTable, .info, .cassetteStatus, .stackBill,
        .returnBill, .resetAll],
        exec i { s with res := some (.err .openFailure) } = .fault .noBlock

/-! ## Sending -/

/-- 42_link_protocol.md R162 to R165, 41_transport_governor.md R143: in `Delay`, with the floor met, the request is issued in one step at
one value of `now`: the stamp, the frame in `txbuf`, the input queue cleared where `CLEAR_RX_BEFORE_SEND` is true, the frame
queued whole, `Sending`. The instructions are `delayBeforeRequest` and, with its request in flight, each of the seven rows
`reqGetStatus`, `reqPoll`, `reqStack`, `reqReturn`, `reqExtIdent`, `reqGetBillTable`, `reqRecCassetteStatus`. -/
def Obligations.RequestIssued : Prop :=
  ∀ (i : Instr) (s : State), issuesRequest i s → s.opened = true → s.phase = .delay → s.lastReq + 150 ≤ s.now →
    s.curPayload.length ≤ 249 → s.txbuf.wf → s.writeSucceeds = true →
    let body : List Byte := [0x02#8, s.addr, BitVec.ofNat 8 (s.curPayload.length + 6), s.curCmd] ++ s.curPayload
    let f : List Byte := body ++ [lowByte (crc16 body), highByte (crc16 body)]
    ∃ m, s.txbuf.loaded f m ∧
      exec i s = .next { s with
        lastReq := s.now, txbuf := m, txLen := s.curPayload.length + 6, crc := crc16 body
        inQueue := if s.params.clearRxBeforeSend then [] else s.inQueue
        outQueue := s.outQueue ++ f, writeFaults := s.writeFaults.tail, phase := .sending }

/-- 42_link_protocol.md R162, R163, R165, 40_frame_codec.md R117, 41_transport_governor.md R144: the other outcomes in `Delay`. Before the floor
the block waits. From it on: a payload over 250 bytes stamps, writes nothing and returns `PayloadTooLarge`; one of exactly 250
is refused; a failed write stamps, has queued a prefix of the frame, and returns `WriteFailure` with no NACK. In `Idle`
`rx_count` is unconstrained (10_state.md R21, the free value of assumption log 8). -/
def Obligations.RequestNotIssued : Prop :=
  ∀ (i : Instr) (s : State), issuesRequest i s → s.opened = true → s.phase = .delay →
    (s.now < s.lastReq + 150 → exec i s = .next s) ∧
    (s.lastReq + 150 ≤ s.now → 250 < s.curPayload.length →
      exec i s = .next { s with lastReq := s.now, phase := .idle
                                res := some (.err (.payloadTooLarge s.curPayload.length))
                                rxCount := s.idleRxCount, ended := s.ended + 1 }) ∧
    (s.lastReq + 150 ≤ s.now → s.curPayload.length = 250 → exec i s = .refused .payload250) ∧
    (∀ k rest, s.lastReq + 150 ≤ s.now → s.curPayload.length ≤ 249 → s.txbuf.wf → s.writeFaults = some k :: rest →
      let body : List Byte := [0x02#8, s.addr, BitVec.ofNat 8 (s.curPayload.length + 6), s.curCmd] ++ s.curPayload
      let f : List Byte := body ++ [lowByte (crc16 body), highByte (crc16 body)]
      ∃ m, s.txbuf.loaded f m ∧
        exec i s = .next { s with
          lastReq := s.now, txbuf := m, txLen := s.curPayload.length + 6, crc := crc16 body
          inQueue := if s.params.clearRxBeforeSend then [] else s.inQueue
          outQueue := s.outQueue ++ f.take k, writeFaults := rest, phase := .idle
          res := some (.err .writeFailure), rxCount := s.idleRxCount, ended := s.ended + 1 })

/-- 41_transport_governor.md R141: `delayBeforeRequest` called by itself in `Idle` stamps once 150 ms have passed since the stamp before,
exactly 150 ms being enough, and else waits. `ret` is the model's own (assumption log 9). -/
def Obligations.DelayByItself : Prop :=
  ∀ s : State, s.ready →
    (s.lastReq + 150 ≤ s.now →
      exec .delayBeforeRequest s = .next { s with lastReq := s.now, ret := some .unit }) ∧
    (s.now < s.lastReq + 150 → exec .delayBeforeRequest s = .next { s with ret := some .waiting })

/-- 41_transport_governor.md R147, 42_link_protocol.md R166, R178: the observed output count. With bytes pending, `Sending`, `AckSent` and
`NackSent` stay. At zero, `Sending` becomes `WaitingEcho` with the deadline at now + 2000 and `rx_count` 0; `AckSent` becomes
`Idle` with the decoded message, which was held since the ACK was sent and not read from `rxbuf` again (20_memory.md R73); `NackSent` becomes `Idle` with the pending error. In another state the function only
answers (`ret`, assumption log 9). In `Idle` `rx_count` is unconstrained (10_state.md R21, the free value of assumption log 8). -/
def Obligations.DrainObserved : Prop :=
  ∀ s : State, s.opened = true →
    (s.phase = .sending ∨ s.phase = .ackSent ∨ s.phase = .nackSent → s.outQueue ≠ [] →
      exec .waitForTransmitComplete s = .next s) ∧
    (s.phase = .sending → s.outQueue = [] →
      exec .waitForTransmitComplete s =
        .next { s with rxDeadline := s.now + 2000, rxCount := 0, phase := .waitingEcho }) ∧
    (s.phase = .ackSent → s.outQueue = [] →
      exec .waitForTransmitComplete s =
        .next { s with phase := .idle
                       res := some (decodeFor s.params s.curOp (.message s.message))
                       rxCount := s.idleRxCount, ended := s.ended + 1 }) ∧
    (∀ e, s.phase = .nackSent → s.outQueue = [] → s.pendErr = some e →
      exec .waitForTransmitComplete s = .next { s with phase := .idle, res := some (.err e)
                                                       rxCount := s.idleRxCount, ended := s.ended + 1 }) ∧
    (s.phase ≠ .sending → s.phase ≠ .ackSent → s.phase ≠ .nackSent →
      exec .waitForTransmitComplete s =
        .next { s with ret := some (if s.outQueue = [] then .unit else .waiting) })

/-- 42_link_protocol.md R174, R176, R178: the ACK frame `02 ADDR 06 00` with its CRC is sent when a `Message(m)` has been validated, with
no spacing delay and no stamp; `m`, a copy of `rxbuf[3 .. rx_len-2]` (10_state.md R35), is held until the drain (the field: assumption
log 10); where it cannot be written, `WriteFailure` is returned in place of the message. `rx_count`
is 0 in `AckSent` (10_state.md R27) and unconstrained in `Idle` (R21, the free value of assumption log 8). That `crc` is left as it
is is the model's reading (log 19), that the row is an instruction its choice (log 13). -/
def Obligations.MasterAckSent : Prop :=
  ∀ (s : State) (msg : List Byte), s.opened = true → s.messageReceived = some msg → s.txbuf.wf →
    msg = s.rxbuf.readBytes 3 (s.rxLen.toNat - 5) ∧
    (s.writeSucceeds = true → ∃ m, s.txbuf.loaded (sixByteFrame s.addr 0x00#8) m ∧
      exec (.masterAck s.addr) s = .next { s with
        txbuf := m, txLen := 6, outQueue := s.outQueue ++ sixByteFrame s.addr 0x00#8
        writeFaults := s.writeFaults.tail, phase := .ackSent, rxCount := 0, message := msg }) ∧
    (∀ k rest, s.writeFaults = some k :: rest → ∃ m, s.txbuf.loaded (sixByteFrame s.addr 0x00#8) m ∧
      exec (.masterAck s.addr) s = .next { s with
        txbuf := m, txLen := 6, outQueue := s.outQueue ++ (sixByteFrame s.addr 0x00#8).take k, writeFaults := rest
        phase := .idle, res := some (.err .writeFailure), rxCount := s.idleRxCount, ended := s.ended + 1 })

/-- 42_link_protocol.md R175, R177, R178: the NACK frame `02 ADDR 06 FF` with its CRC is sent in the receive phase for the error in
`pend_err`, with no spacing delay and no stamp; where it cannot be written, that error is returned all the same. `rx_count` is 0
in `NackSent` (10_state.md R27) and unconstrained in `Idle` (R21, the free value of assumption log 8). That `crc` is left as it is is
the model's reading (log 19), that the row is an instruction its choice (log 13). -/
def Obligations.MasterNackSent : Prop :=
  ∀ (s : State) (e : Err), s.opened = true → s.receiving → s.pendErr = some e → s.txbuf.wf →
    (s.writeSucceeds = true → ∃ m, s.txbuf.loaded (sixByteFrame s.addr 0xFF#8) m ∧
      exec (.masterNack s.addr) s = .next { s with
        txbuf := m, txLen := 6, outQueue := s.outQueue ++ sixByteFrame s.addr 0xFF#8
        writeFaults := s.writeFaults.tail, phase := .nackSent, rxCount := 0 }) ∧
    (∀ k rest, s.writeFaults = some k :: rest → ∃ m, s.txbuf.loaded (sixByteFrame s.addr 0xFF#8) m ∧
      exec (.masterNack s.addr) s = .next { s with
        txbuf := m, txLen := 6, outQueue := s.outQueue ++ (sixByteFrame s.addr 0xFF#8).take k, writeFaults := rest
        phase := .idle, res := some (.err e), rxCount := s.idleRxCount, ended := s.ended + 1 })

/-- 42_link_protocol.md R180, "No other transition exists": a frame of the master presented where the block does not send it has no next
state (that such a frame can be presented at all is the model's choice, assumption log 13). -/
def Obligations.MasterFramesNowhereElse : Prop :=
  ∀ (s t : State) (a : Byte),
    (∀ i ∈ [Instr.reqGetStatus a, .reqPoll a, .reqStack a, .reqReturn a, .reqExtIdent a, .reqGetBillTable a,
        .reqRecCassetteStatus a], exec i s = .next t → s.opened = true ∧ s.phase = .delay ∧ issuesRequest i s) ∧
    (exec (.masterAck a) s = .next t → s.opened = true ∧ s.messageReceived ≠ none ∧ a = s.addr) ∧
    (exec (.masterNack a) s = .next t → s.opened = true ∧ s.receiving ∧ s.pendErr ≠ none ∧ a = s.addr)

/-- 42_link_protocol.md R175, `fail_rx(e)`: a read timeout with `NACK_ON_TIMEOUT` false returns at once; every other failure is kept in
`pend_err` while a NACK is sent to `ADDR`; a NACK that cannot be written is dropped and the original error returned. `rx_count`
is 0 in `NackSent` (10_state.md R27) and unconstrained in `Idle` (R21, the free value of assumption log 8). That `crc` is left as it
is is the model's reading (log 19). -/
def Obligations.FailReceive : Prop :=
  ∀ (s : State) (e : Err), s.txbuf.wf →
    (e = .readTimeout → s.params.nackOnTimeout = false →
      s.failRx e = { s with phase := .idle, res := some (.err e), rxCount := s.idleRxCount, ended := s.ended + 1 }) ∧
    (¬ (e = .readTimeout ∧ s.params.nackOnTimeout = false) → s.writeSucceeds = true →
      ∃ m, s.txbuf.loaded (sixByteFrame s.addr 0xFF#8) m ∧
        s.failRx e = { s with
          pendErr := some e, txbuf := m, txLen := 6, outQueue := s.outQueue ++ sixByteFrame s.addr 0xFF#8
          writeFaults := s.writeFaults.tail, phase := .nackSent, rxCount := 0 }) ∧
    (∀ k rest, ¬ (e = .readTimeout ∧ s.params.nackOnTimeout = false) → s.writeFaults = some k :: rest →
      ∃ m, s.txbuf.loaded (sixByteFrame s.addr 0xFF#8) m ∧
        s.failRx e = { s with
          pendErr := some e, txbuf := m, txLen := 6, outQueue := s.outQueue ++ (sixByteFrame s.addr 0xFF#8).take k
          writeFaults := rest, phase := .idle, res := some (.err e), rxCount := s.idleRxCount, ended := s.ended + 1 })

/-- 60_exceptions.md R262: the fourteen errors with their codes, their classes and whether a NACK is sent first; and for the four errors
of `fail_rx` (42_link_protocol.md R175) that column is what the block does: with a write that succeeds the failure ends in `NackSent`
exactly where the table says that a NACK is sent, and else in `Idle`. -/
def Obligations.ErrorTable : Prop :=
  (∀ (s : State) (e : Err) (x : Byte) (n : Nat) (u v : Word16), s.writeSucceeds = true →
    e ∈ [.readTimeout, .addressMismatch x, .frameTooShort n, .integrityError u v] →
    (s.failRx e).phase = (if e.sendsNack s.params = true then .nackSent else .idle)) ∧
  ∀ (p : Params) (n : Nat) (x cmd : Byte) (u v : Word16) (body : List Byte) (o : Option Nat),
    let row (e : Err) (code : Byte) (k : ErrClass) (nack : Bool) : Prop :=
      e.code = code ∧ e.errClass = k ∧ e.sendsNack p = nack
    row .openFailure 0x01#8 .transport false ∧ row .writeFailure 0x02#8 .transport false ∧
    row .readTimeout 0x03#8 .transport p.nackOnTimeout ∧ row (.payloadTooLarge n) 0x10#8 .encode false ∧
    row (.addressMismatch x) 0x11#8 .frame true ∧ row (.frameTooShort n) 0x12#8 .frame true ∧
    row (.integrityError u v) 0x13#8 .frame true ∧ row (.nackReceived cmd) 0x20#8 .protocol false ∧
    row (.incrementCommandReceived cmd) 0x21#8 .protocol false ∧
    row (.unexpectedMessage cmd body) 0x22#8 .protocol false ∧ row (.unexpectedResponse cmd) 0x23#8 .protocol false ∧
    row .emptyStatus 0x30#8 .decode false ∧ row .missingBillType 0x31#8 .decode false ∧
    row (.unexpectedLength n o) 0x32#8 .decode false

/-! ## Receiving, byte by byte -/

/-- 42_link_protocol.md R168: a byte read in `WaitingEcho`. One that is not 0x02 is discarded: nothing is stored and the state stays; 0x02
is stored at offset 0, `rx_count` becomes 1, `crc` 0x2312, `state` `ReceivingFrame`. With `per_byte` the register `rx_deadline` is
rewritten at every byte read, here and below: the model's choice (assumption log 24). -/
def Obligations.HuntForSync : Prop :=
  ∀ (s : State) (b : Byte) (rest : List Byte), s.script = [] → s.opened = true → s.phase = .waitingEcho →
    s.inQueue = b :: rest → s.now < s.rxDeadline →
    (b ≠ 0x02#8 → step s = .next { s with inQueue := rest, rxDeadline := s.nextDeadline }) ∧
    (b = 0x02#8 → s.rxbuf.wf → ∃ m, s.rxbuf.stored 0 0x02#8 m ∧
      step s = .next { s with
        inQueue := rest, rxDeadline := s.nextDeadline, rxbuf := m, rxCount := 1, crc := 0x2312#16
        phase := .receivingFrame })

/-- 42_link_protocol.md R170: the second byte is stored and run through the CRC; where it is not `ADDR` the exchange fails at once with
`AddressMismatch` and no further byte of the frame is read (`rx_deadline`: assumption log 24). -/
def Obligations.ReceiveAddress : Prop :=
  ∀ (s : State) (b : Byte) (rest : List Byte), s.script = [] → s.opened = true → s.phase = .receivingFrame →
    s.rxCount = 1 → s.rxbuf.wf → s.inQueue = b :: rest → s.now < s.rxDeadline →
    ∃ m, s.rxbuf.stored 1 b m ∧
      let t : State := { s with inQueue := rest, rxDeadline := s.nextDeadline, rxbuf := m, rxCount := 2
                                crc := crcUpdate s.crc b }
      step s = .next (if b = s.addr then t else t.failRx (.addressMismatch b))

/-- 42_link_protocol.md R171: the third byte is stored, run through the CRC and taken as `rx_len`; below 6 the exchange fails at once with
`FrameTooShort` (`rx_deadline`: assumption log 24). -/
def Obligations.ReceiveLength : Prop :=
  ∀ (s : State) (b : Byte) (rest : List Byte), s.script = [] → s.opened = true → s.phase = .receivingFrame →
    s.rxCount = 2 → s.rxbuf.wf → s.inQueue = b :: rest → s.now < s.rxDeadline →
    ∃ m, s.rxbuf.stored 2 b m ∧
      let t : State := { s with inQueue := rest, rxDeadline := s.nextDeadline, rxbuf := m, rxCount := 3, rxLen := b
                                crc := crcUpdate s.crc b }
      step s = .next (if b.toNat < 6 then t.failRx (.frameTooShort b.toNat) else t)

/-- 42_link_protocol.md R172: a further byte that is not the last is stored at offset `rx_count`, whatever its value, and run through the CRC
where its offset lies below `rx_len - 2` (`rx_deadline`: assumption log 24). -/
def Obligations.ReceiveBody : Prop :=
  ∀ (s : State) (b : Byte) (rest : List Byte), s.script = [] → s.opened = true → s.phase = .receivingFrame →
    3 ≤ s.rxCount → s.rxCount + 1 < s.rxLen.toNat → s.rxbuf.wf → s.inQueue = b :: rest → s.now < s.rxDeadline →
    ∃ m, s.rxbuf.stored s.rxCount b m ∧
      step s = .next { s with
        inQueue := rest, rxDeadline := s.nextDeadline, rxbuf := m, rxCount := s.rxCount + 1
        crc := if s.rxCount < s.rxLen.toNat - 2 then crcUpdate s.crc b else s.crc }

/-- 42_link_protocol.md R173, R174: with the last byte the frame is validated in the same step. A CRC that differs from the carried one fails
with `IntegrityError`; an `Ack`, `Nack` or `IncrementCommand` ends the exchange with nothing sent; a `Message` is
acknowledged. In `Idle` `rx_count` is unconstrained (10_state.md R21, the free value of assumption log 8); what an ACK or a NACK
leaves in it: `MasterAckSent`, `FailReceive`; `rx_deadline`: log 24. -/
def Obligations.ReceiveLastByte : Prop :=
  ∀ (s : State) (b : Byte) (rest : List Byte), s.script = [] → s.opened = true → s.phase = .receivingFrame →
    3 ≤ s.rxCount → s.rxCount + 1 = s.rxLen.toNat → s.rxbuf.wf → s.inQueue = b :: rest → s.now < s.rxDeadline →
    ∃ m, s.rxbuf.stored s.rxCount b m ∧
      let n := s.rxLen.toNat
      let t : State := { s with
        inQueue := rest, rxDeadline := s.nextDeadline, rxbuf := m, rxCount := n
        crc := if s.rxCount < n - 2 then crcUpdate s.crc b else s.crc }
      let computed := crc16 (m.readBytes 0 (n - 2))
      let carried := le16 (m.read (n - 2)) (m.read (n - 1))
      let r := classifyFrame s.params.incCmdCode (m.readBytes 0 n)
      (computed ≠ carried → step s = .next (t.failRx (.integrityError computed carried))) ∧
      (computed = carried → r ∈ [.ack, .nack, .incrementCommand] →
        step s = .next { t with phase := .idle, res := some (decodeFor s.params s.curOp r)
                                rxCount := s.idleRxCount, ended := s.ended + 1 }) ∧
      (∀ msg, computed = carried → r = .message msg → step s = .next (t.sendAck msg))

/-- 41_transport_governor.md R152, R153, 42_link_protocol.md R175: in the receive phase with no byte available, the block waits before the
deadline and fails with `ReadTimeout` from it on. A byte available before the deadline is read, and the deadline of the next
read follows `RX_TIMEOUT_SCOPE` (held in `rx_deadline`, assumption log 24). With a byte available and the deadline passed either outcome is possible
(the free value of assumption log 2): the byte is read, or the read times out and the byte stays. -/
def Obligations.ReadTimeouts : Prop :=
  ∀ s : State, s.script = [] → s.opened = true → s.receiving →
    (s.inQueue = [] → s.now < s.rxDeadline → step s = .next s) ∧
    (s.inQueue = [] → s.rxDeadline ≤ s.now → step s = .next (s.failRx .readTimeout)) ∧
    (∀ b rest, s.inQueue = b :: rest → s.now < s.rxDeadline →
      step s = takeByte b { s with inQueue := rest, rxDeadline := s.nextDeadline }) ∧
    (∀ b rest, s.inQueue = b :: rest → s.rxDeadline ≤ s.now →
      step s = .next (State.failRx { s with ties := s.ties + 1 } .readTimeout) ∨
      step s = takeByte b { s with inQueue := rest, rxDeadline := s.nextDeadline, ties := s.ties + 1 })

/-! ## Receiving, frame by frame -/

/-- 40_frame_codec.md R124, 42_link_protocol.md R168 to R174: a whole frame from `ADDR` of class `Ack`, `Nack` or `IncrementCommand` that comes
in time to a block hunting for `SYNC` ends the exchange: the frame is in `rxbuf`, nothing is sent, and the result is what the
issued operation's decoder gives. In `Idle` `rx_count` is unconstrained (10_state.md R21, the free value of assumption log 8); what
`crc` and `rx_deadline` hold there, where 93_implementation_defined.md U5 leaves them free, is the model's reading (log 19, 24); the
whole bytes at one instant are its choice (log 14). -/
def Obligations.BareResponses : Prop :=
  ∀ (s : State), s.hunts →
    let ends (i : Instr) (d : Byte) (r : Response) : Prop :=
      ∃ m, s.rxbuf.loaded (sixByteFrame s.addr d) m ∧
        exec i s = .next { s with
          rxbuf := m, rxLen := 0x06#8, crc := crc16 [0x02#8, s.addr, 0x06#8, d]
          rxDeadline := s.nextDeadline, phase := .idle, res := some (decodeFor s.params s.curOp r)
          rxCount := s.idleRxCount, ended := s.ended + 1 }
    ends (.rspAck s.addr) 0x00#8 .ack ∧ ends (.rspNack s.addr) 0xFF#8 .nack ∧
    (∀ d, d = s.params.incCmdCode → d ≠ 0x00#8 → d ≠ 0xFF#8 →
      ends (.rspIncrementCommand s.addr d) d .incrementCommand)

/-- 42_link_protocol.md R168 to R174, R176, R178: a whole `Message` frame from `ADDR`, of one byte (`rspMessage1`) or of 2 to 250
(`rspMessage`), that comes in time to a block hunting for `SYNC` is stored and acknowledged; where the ACK cannot be written,
`WriteFailure` is returned. `rx_count` is 0 in `AckSent` (10_state.md R27) and unconstrained in `Idle` (R21, the free value of
assumption log 8). That `crc` keeps the response's CRC through the ACK (log 19) and `rx_deadline` the next read's deadline (log 24) is
the model's reading; the whole bytes at one instant are its choice (log 14). -/
def Obligations.MessageResponses : Prop :=
  ∀ (s : State) (data : List Byte) (i : Instr), s.hunts →
    (∃ d, data = [d] ∧ d ≠ 0x00#8 ∧ d ≠ 0xFF#8 ∧ d ≠ s.params.incCmdCode ∧ i = .rspMessage1 s.addr d) ∨
      (2 ≤ data.length ∧ data.length ≤ 250 ∧ i = .rspMessage s.addr data) →
    let body : List Byte := [0x02#8, s.addr, BitVec.ofNat 8 (data.length + 5)] ++ data
    let ack := sixByteFrame s.addr 0x00#8
    ∃ m m', s.rxbuf.loaded (body ++ [lowByte (crc16 body), highByte (crc16 body)]) m ∧ s.txbuf.loaded ack m' ∧
      let t : State := { s with
        rxbuf := m, rxLen := BitVec.ofNat 8 (data.length + 5), crc := crc16 body
        rxDeadline := s.nextDeadline, txbuf := m', txLen := 6 }
      (s.writeSucceeds = true →
        exec i s = .next { t with outQueue := s.outQueue ++ ack, writeFaults := s.writeFaults.tail
                                  phase := .ackSent, rxCount := 0, message := data }) ∧
      (∀ k rest, s.writeFaults = some k :: rest →
        exec i s = .next { t with outQueue := s.outQueue ++ ack.take k, writeFaults := rest, phase := .idle
                                  res := some (.err .writeFailure), rxCount := s.idleRxCount
                                  ended := s.ended + 1 })

/-- 42_link_protocol.md R170, R171, R173, 30_encoding.md R94: the three illegal classes of bytes of the slave, coming in time to a block hunting
for `SYNC`: each is read up to the byte that shows the error, and the exchange fails with it (what that does is
`FailReceive`, `rx_count` among it). What `crc` and `rx_deadline` hold after it is the model's reading (assumption log 19, 24); the whole
bytes at one instant are its choice (log 14). -/
def Obligations.IllegalResponses : Prop :=
  ∀ (s : State), s.hunts →
    (∀ x, x ≠ s.addr → ∃ m, s.rxbuf.loaded [0x02#8, x] m ∧
      exec (.rspBadAddress x) s = .next (State.failRx { s with
        rxbuf := m, rxCount := 2, crc := crc16 [0x02#8, x], rxDeadline := s.nextDeadline, phase := .receivingFrame }
        (.addressMismatch x))) ∧
    (∀ n : Byte, n.toNat < 6 → ∃ m, s.rxbuf.loaded [0x02#8, s.addr, n] m ∧
      exec (.rspTooShort s.addr n) s = .next (State.failRx { s with
        rxbuf := m, rxCount := 3, rxLen := n, crc := crc16 [0x02#8, s.addr, n], rxDeadline := s.nextDeadline
        phase := .receivingFrame } (.frameTooShort n.toNat))) ∧
    (∀ (data : List Byte) (carried : Word16), 1 ≤ data.length → data.length ≤ 250 →
      let body : List Byte := [0x02#8, s.addr, BitVec.ofNat 8 (data.length + 5)] ++ data
      carried ≠ crc16 body →
      ∃ m, s.rxbuf.loaded (body ++ [lowByte carried, highByte carried]) m ∧
        exec (.rspBadCrc s.addr data carried) s = .next (State.failRx { s with
          rxbuf := m, rxCount := data.length + 5, rxLen := BitVec.ofNat 8 (data.length + 5), crc := crc16 body
          rxDeadline := s.nextDeadline, phase := .receivingFrame } (.integrityError (crc16 body) carried)))

/-- 40_frame_codec.md R121, 42_link_protocol.md R170, R175: bytes of the slave whose second byte is not `ADDR`, whatever their row, are rejected
at that byte, "never silently accepted"; the bytes after it stay in the input queue. What `crc` and `rx_deadline` hold after
it is the model's reading (assumption log 19, 24); the whole bytes at one instant are its choice (log 14). -/
def Obligations.AddressMismatchRejected : Prop :=
  ∀ (s : State) (i : Instr) (x : Byte) (rest : List Byte), s.hunts → x ≠ s.addr →
    encode s.addr i = some (.slave, 0x02#8 :: x :: rest) →
    ∃ m, s.rxbuf.loaded [0x02#8, x] m ∧
      exec i s = .next (State.failRx { s with
        rxbuf := m, rxCount := 2, crc := crc16 [0x02#8, x], rxDeadline := s.nextDeadline, phase := .receivingFrame
        inQueue := rest } (.addressMismatch x))

/-- 60_exceptions.md R265, 10_state.md R36: bytes of the slave that come to a block that is not receiving join the input queue and nothing
else happens. -/
def Obligations.ResponsesWait : Prop :=
  ∀ (s : State) (i : Instr) (bytes : List Byte), s.opened = true → ¬ s.receiving →
    encode s.addr i = some (.slave, bytes) → exec i s = .next { s with inQueue := s.inQueue ++ bytes }

/-! ## The machine -/

/-- 10_state.md R28, R40 (assumption log 5, 6): a step runs the instruction that the bytes at the head of the script decode to, on the
state with those bytes gone; an operation presented as such is run the same way; and the host's `withFetchWord` places a word
so that the next step runs what it decodes to. -/
def Obligations.StepRunsDecoded : Prop :=
  (∀ (s : State) (f : Format) (bytes : List Byte) (rest : List Move) (i : Instr),
    s.script = .wire f bytes :: rest → decode s.params.incCmdCode f bytes = .ok i →
    step s = exec i { s with script := rest }) ∧
  (∀ (s : State) (i : Instr) (rest : List Move), s.script = .present i :: rest →
    step s = exec i { s with script := rest }) ∧
  (∀ (s : State) (nbits w : Nat) (i : Instr), s.params.incCmdCode = 0xFF#8 → decodeTableWord nbits w = some i →
    step (s.withFetchWord nbits w) = exec i s)

/-- 10_state.md R20, R26, R28, 60_exceptions.md R265, R266: the steps that present nothing. Time, the drain and arriving bytes change only what
they are; the block's own step is fixed by `state`: `Idle` looks at nothing, `Delay` asks for the floor, the states that wait
for the drain ask for the count, `Breaking` asks for the end of the break. -/
def Obligations.OtherSteps : Prop :=
  ∀ (s : State),
    (∀ rest ms, s.script = .advance ms :: rest → step s = .next { s with script := rest, now := s.now + ms }) ∧
    (∀ rest n, s.script = .drain n :: rest →
      step s = .next { s with script := rest, outQueue := s.outQueue.drop n, line := s.line ++ s.outQueue.take n }) ∧
    (∀ rest bytes, s.script = .arrive bytes :: rest → s.opened = true →
      step s = .next { s with script := rest, inQueue := s.inQueue ++ bytes }) ∧
    (∀ rest, s.script = .observe :: rest → step s = blockMove { s with script := rest }) ∧
    (s.script = [] → step s = blockMove s) ∧
    (s.opened = false → blockMove s = .next s) ∧
    (s.opened = true →
      (s.phase = .idle → blockMove s = .next s) ∧
      (s.phase = .delay → blockMove s = exec .delayBeforeRequest s) ∧
      (s.phase = .sending ∨ s.phase = .ackSent ∨ s.phase = .nackSent →
        blockMove s = exec .waitForTransmitComplete s) ∧
      (s.receiving → blockMove s = receiveStep s) ∧
      (s.phase = .breaking → blockMove s = exec .resetLink s))

/-- DECODE AND ENCODE AGREE, over every instruction: decoding the words of a well-formed instruction gives it back, at every value of
its operands; `getBillOptions` reads as `poll`, whose frame it sends bit for bit (30_encoding.md R80 to R93, R99,
44_device_controller.md R242). That the decoder is told the format is the model's choice (assumption log 17). -/
def Obligations.DecodeEncodeAgree : Prop :=
  ∀ (addr inc : Byte) (i : Instr) (f : Format) (bytes : List Byte),
    WellFormed inc i → encode addr i = some (f, bytes) →
    decode inc f bytes = .ok (if i = .getBillOptions then .poll else i)

/-- Words the spec writes out (95_test_vectors.md V10, V11, V20 to V23, V31, the status table), one or more of each format, decode to the
instruction they stand for. Rejected by name are a frame whose first byte is not `SYNC`, a frame of the master with a wrong CRC, and,
among the operations, 0x31 (`GET_STATUS`), a code that has a name (30_encoding.md R89) and no operation (44_device_controller.md R249).
That the decoder is told the format, and these rejections with it, is the model's choice (assumption log 17). -/
def Obligations.DecodeWords : Prop :=
  decode 0xFF#8 .hostOp [0x02#8, 0x03#8, 0x06#8, 0x33#8, 0xDA#8, 0x81#8] = .ok .poll ∧
  decode 0xFF#8 .hostOp [0x02#8, 0x03#8, 0x06#8, 0x41#8, 0x4F#8, 0xD1#8] = .ok .getBillTable ∧
  decode 0xFF#8 .reqVar [0x02#8, 0x03#8, 0x09#8, 0x34#8, 0x01#8, 0x02#8, 0x03#8, 0x4B#8, 0x0F#8] =
    .ok (.exchange 0x34#8 [0x01#8, 0x02#8, 0x03#8]) ∧
  decode 0xFF#8 .m6 [0x02#8, 0x7F#8, 0x06#8, 0x36#8, 0x0C#8, 0xF3#8] = .ok (.reqReturn 0x7F#8) ∧
  decode 0xFF#8 .m6 [0x02#8, 0xFF#8, 0x06#8, 0x00#8, 0x55#8, 0xAB#8] = .ok (.masterAck 0xFF#8) ∧
  decode 0xFF#8 .slave [0x02#8, 0x03#8, 0x06#8, 0x00#8, 0xC2#8, 0x82#8] = .ok (.rspAck 0x03#8) ∧
  decode 0xFF#8 .slave [0x02#8, 0x03#8, 0x06#8, 0x14#8, 0x67#8, 0xD4#8] = .ok (.rspMessage1 0x03#8 0x14#8) ∧
  decode 0xFF#8 .slave [0x02#8, 0x03#8, 0x07#8, 0x80#8, 0x07#8, 0x33#8, 0x47#8] =
    .ok (.rspMessage 0x03#8 [0x80#8, 0x07#8]) ∧
  decode 0xFF#8 .slave [0x02#8, 0x03#8, 0x05#8] = .ok (.rspTooShort 0x03#8 0x05#8) ∧
  decode 0xFF#8 .slave [0x02#8, 0x04#8] = .ok (.rspBadAddress 0x04#8) ∧
  decode 0xFF#8 .status [0x80#8, 0x07#8] = .ok (.statusEscrow [0x07#8]) ∧
  decode 0xFF#8 .status [0x47#8] = .ok (.statusOther 0x47#8 []) ∧
  decode 0xFF#8 .slave [0x03#8, 0x03#8, 0x06#8, 0x14#8, 0x67#8, 0xD4#8] = .reject .notSync ∧
  decode 0xFF#8 .m6 [0x02#8, 0x03#8, 0x06#8, 0x33#8, 0x81#8, 0xDA#8] = .reject .badCrc ∧
  decode 0xFF#8 .hostOp [0x02#8, 0x03#8, 0x06#8, 0x31#8, 0xC8#8, 0xA2#8] = .reject .unknownCommand

/-- AN INVARIANT THAT EVERY STEP KEEPS (`State.Inv` in Safety.lean names the rule of each part): the canonical form of the buffers, the
bounds of the counters, the pair (`state`, `rx_count`), the running CRC over the stored bytes, no read while a frame drains,
a break only in `Breaking`, an error pending while a NACK drains, a validated message while an ACK drains, no result while an
operation runs (assumption log 11), positive poll intervals. -/
def Obligations.InvPreserved : Prop :=
  ∀ s t : State, s.Inv → step s = .next t → t.Inv

/-- The invariant holds after reset (70_reset_and_hazards.md R301; the values the spec leaves open are the model's, assumption log 1,
3, 4). -/
def Obligations.InvReset : Prop := State.reset.Inv

/-- 42_link_protocol.md R180: in every state that meets the invariant the block's own step has a next state, but for the one case to
which the spec gives no meaning: a request of exactly 250 payload bytes (40_frame_codec.md R117). -/
def Obligations.BlockNeverStuck : Prop :=
  ∀ s : State, s.Inv → s.script = [] →
    (∃ t, step s = .next t) ∨
      (step s = .refused .payload250 ∧ s.phase = .delay ∧ s.curPayload.length = 250 ∧ s.lastReq + 150 ≤ s.now)

/-- 41_transport_governor.md R142, R145, 10_state.md R23: in every step of a constructed block, whatever it runs, `last_req` stays or is
stamped with the present time at least 150 ms after the stamp before. -/
def Obligations.SpacingFloor : Prop :=
  ∀ s t : State, s.opened = true → step s = .next t →
    t.lastReq = s.lastReq ∨ (t.lastReq = s.now ∧ t.now = s.now ∧ s.lastReq + 150 ≤ t.lastReq)

/-- 42_link_protocol.md R180, 10_state.md R26: the block's own step either leaves `state` as it is or is a row of the transition table,
with the row's event before it and the row's result after it (`TransitionRow` has one constructor for each). On a tie either row of
the read may be the one (assumption log 2). -/
def Obligations.PhaseTransitions : Prop :=
  ∀ s t : State, s.opened = true → s.script = [] → step s = .next t →
    t.phase ∈ s.phase.next ∧ (t.phase ≠ s.phase → TransitionRow s t)

/-- 10_state.md R21, R46, 70_reset_and_hazards.md R324: in a state that meets the invariant, while an operation runs `res` is empty and no step
writes it, and the step that returns `state` to `Idle` writes it: the result is that operation's own, and the one it has. That `res`
is emptied when the operation is accepted is the model's reading (assumption log 11). -/
def Obligations.OneResultAtTheEnd : Prop :=
  ∀ s t : State, s.Inv → s.opened = true → s.phase ≠ .idle → step s = .next t →
    s.res = none ∧ (t.phase ≠ .idle → t.res = none) ∧ (t.phase = .idle → ∃ r, t.res = some r)

/-- 20_memory.md R72, 10_state.md R22, R37: no step of a constructed block changes `ADDR`, `BAUD`, `opened`, the parameters or the opened
line. -/
def Obligations.ConfigurationConstant : Prop :=
  ∀ s t : State, s.opened = true → step s = .next t →
    t.addr = s.addr ∧ t.baud = s.baud ∧ t.opened = true ∧ t.params = s.params ∧ t.port = s.port

/-- 20_memory.md R57, R68, R69, 00_scope.md R9: time never goes back, and what was queued is put on the line in the order written, never
undone: what is on the line or queued for it only grows at its end, and the line itself only grows at its end. -/
def Obligations.OutputInOrder : Prop :=
  ∀ s t : State, s.opened = true → step s = .next t →
    s.now ≤ t.now ∧ s.line <+: t.line ∧ s.line ++ s.outQueue <+: t.line ++ t.outQueue

/-- 42_link_protocol.md R160 to R178: ONE WHOLE EXCHANGE. Whatever the address, the command, a payload of up to 249 bytes, a body of 2 to
250 bytes, the parameters and the leftovers in the registers: an exchange presented in `Idle`, whose request drains and which
the slave answers in time with a good message, puts the request and then the ACK on the line, stamps `last_req` at the issue,
and returns `Ok(Message(body))`. The moves of the environment (150 ms pass, the output drains, the frame arrives) are one
choice among those the spec allows. -/
def Obligations.WholeExchange : Prop :=
  ∀ (s : State) (cmd : Byte) (payload body : List Byte) (n : Nat), s.Inv → s.ready → s.outQueue = [] → s.inQueue = [] →
    s.writeFaults = [] → payload.length ≤ 249 → 2 ≤ body.length → body.length ≤ 250 → n < 2000 →
    s.script = [.present (.exchange cmd payload), .advance 150, .observe, .drain 255, .observe, .advance n,
      .present (.rspMessage s.addr body), .drain 6, .observe] →
    ∃ t, runTo 9 s = some t ∧ t.phase = .idle ∧ t.res = some (.ok (.response (.message body))) ∧
      t.line = s.line ++ requestFrame s.addr cmd payload ++ sixByteFrame s.addr 0x00#8 ∧
      t.lastReq = s.now + 150 ∧ t.now = s.now + 150 + n ∧ t.outQueue = [] ∧ t.inQueue = []

/-- 10_state.md R27, R21: the run of `rx_count`. In a state that meets the invariant, the block's own step leaves it 0 in every state
but `ReceivingFrame` and `Idle` (there it is unconstrained, R21, the free value of assumption log 8); in `ReceivingFrame` it stands
at 1 after `SYNC`, and from there advances by exactly one with each byte taken from the input queue and by none without, not
beyond 255. -/
def Obligations.ReceiveCountRuns : Prop :=
  ∀ s t : State, s.Inv → s.opened = true → s.script = [] → step s = .next t →
    (t.phase ≠ .receivingFrame → t.phase ≠ .idle → t.rxCount = 0) ∧
    (t.phase = .receivingFrame →
      t.rxCount + t.inQueue.length = s.rxCount + s.inQueue.length ∧ s.rxCount ≤ t.rxCount ∧ t.rxCount ≤ s.rxCount + 1 ∧
      1 ≤ t.rxCount ∧ t.rxCount ≤ 255 ∧ (s.phase ≠ .receivingFrame → t.rxCount = 1))
end

