-- ==== Sys2Proof/Laws/Memory.lean ====
section
/-! SUPPORT. The laws of a frame buffer: a read after a write, what a write leaves alone, and the canonical form, which every
operation keeps. -/

namespace Sys2Proof.Machine

/-! ## One byte -/

theorem Memory.read_eq_blank_of_lt {m : Memory} {a : Nat} (h : ∀ c ∈ m, a < c.1) : m.read a = Memory.blank := by
  induction m with
  | nil => rfl
  | cons c m ih =>
    have hc : a < c.1 := h c (by simp)
    simp only [Memory.read, if_neg (Nat.ne_of_gt hc)]
    exact ih fun d hd => h d (by simp [hd])

/-- A read at the offset written gives the byte written (in a buffer of canonical form, where the removed entry of a
blank write was the only one). -/
theorem Memory.read_write_same {m : Memory} (hm : m.Pairwise fun x y => x.1 < y.1) (a : Nat) (b : Byte) :
    (m.write a b).read a = b := by
  induction m with
  | nil => by_cases hb : b = Memory.blank <;> simp [Memory.write, Memory.read, hb]
  | cons c m ih =>
    obtain ⟨hc, hm'⟩ := List.pairwise_cons.mp hm
    unfold Memory.write
    split_ifs with h1 h2 h3 h4
    · subst h2
      refine Memory.read_eq_blank_of_lt fun d hd => ?_
      rcases List.mem_cons.mp hd with rfl | hd
      · exact h1
      · exact Nat.lt_trans h1 (hc d hd)
    · simp [Memory.read]
    · subst h3 h4
      exact Memory.read_eq_blank_of_lt hc
    · simp [Memory.read]
    · simp only [Memory.read, if_neg (Ne.symm h3)]
      exact ih hm'

/-- A write leaves every other offset alone. -/
theorem Memory.read_write_other (m : Memory) {a k : Nat} (b : Byte) (h : k ≠ a) :
    (m.write a b).read k = m.read k := by
  induction m with
  | nil => by_cases hb : b = Memory.blank <;> simp [Memory.write, Memory.read, hb, h.symm]
  | cons c m ih =>
    unfold Memory.write
    split_ifs with h1 h2 h3 h4
    · rfl
    · simp [Memory.read, h.symm]
    · subst h3; simp [Memory.read, h.symm]
    · subst h3; simp [Memory.read, h.symm]
    · simp only [Memory.read, ih]

/-! ## The canonical form -/

theorem Memory.mem_write {m : Memory} {a : Nat} {b : Byte} {c : Host.Cell} (h : c ∈ m.write a b) :
    c ∈ m ∨ (c = (a, b) ∧ b ≠ Memory.blank) := by
  induction m with
  | nil =>
    by_cases hb : b = Memory.blank
    · simp [Memory.write, hb] at h
    · simp [Memory.write, hb] at h
      exact .inr ⟨h, hb⟩
  | cons d m ih =>
    unfold Memory.write at h
    split_ifs at h with h1 h2 h3 h4
    · exact .inl h
    · rcases List.mem_cons.mp h with rfl | h
      · exact .inr ⟨rfl, h2⟩
      · exact .inl h
    · exact .inl (List.mem_cons_of_mem _ h)
    · rcases List.mem_cons.mp h with rfl | h
      · exact .inr ⟨rfl, h4⟩
      · exact .inl (List.mem_cons_of_mem _ h)
    · rcases List.mem_cons.mp h with rfl | h
      · exact .inl (by simp)
      · exact (ih h).imp (List.mem_cons_of_mem _) id

theorem Memory.pairwise_write {m : Memory} (hm : m.Pairwise fun x y => x.1 < y.1) (a : Nat) (b : Byte) :
    (m.write a b).Pairwise fun x y => x.1 < y.1 := by
  induction m with
  | nil => by_cases hb : b = Memory.blank <;> simp [Memory.write, hb]
  | cons c m ih =>
    obtain ⟨hc, hm'⟩ := List.pairwise_cons.mp hm
    unfold Memory.write
    split_ifs with h1 h2 h3 h4
    · exact hm
    · refine List.pairwise_cons.mpr ⟨fun d hd => ?_, hm⟩
      rcases List.mem_cons.mp hd with rfl | hd
      · exact h1
      · exact Nat.lt_trans h1 (hc d hd)
    · exact hm'
    · subst h3
      exact List.pairwise_cons.mpr ⟨hc, hm'⟩
    · refine List.pairwise_cons.mpr ⟨fun d hd => ?_, ih hm'⟩
      rcases Memory.mem_write hd with hd | ⟨rfl, -⟩
      · exact hc d hd
      · change c.1 < a
        omega

/-- A write within the buffer keeps the canonical form. -/
theorem Memory.wf_write {m : Memory} (hm : m.wf) {a : Nat} (ha : a < Config.maxFrame) (b : Byte) : (m.write a b).wf := by
  refine ⟨Memory.pairwise_write hm.1 a b, fun c hc => ?_⟩
  rcases Memory.mem_write hc with hc | ⟨rfl, hb⟩
  · exact hm.2 c hc
  · exact ⟨hb, ha⟩

theorem Memory.wf_nil : Memory.wf [] := by simp [Memory.wf]

/-! ## Byte lists -/

@[simp] theorem Memory.length_readBytes (m : Memory) (off n : Nat) : (m.readBytes off n).length = n := by
  induction n generalizing off with
  | zero => rfl
  | succ n ih => simp [Memory.readBytes, ih]

theorem Memory.getElem_readBytes (m : Memory) (off n k : Nat) (h : k < (m.readBytes off n).length) :
    (m.readBytes off n)[k] = m.read (off + k) := by
  induction n generalizing off k with
  | zero => simp [Memory.readBytes] at h
  | succ n ih =>
    cases k with
    | zero => simp [Memory.readBytes]
    | succ k =>
      simp only [Memory.readBytes, List.getElem_cons_succ]
      rw [ih]
      congr 1
      omega

/-- One more byte read is one more byte at the end. -/
theorem Memory.readBytes_succ (m : Memory) (off n : Nat) :
    m.readBytes off (n + 1) = m.readBytes off n ++ [m.read (off + n)] := by
  induction n generalizing off with
  | zero => simp [Memory.readBytes]
  | succ n ih =>
    rw [Memory.readBytes, ih (off + 1)]
    simp [Memory.readBytes, Nat.add_comm, Nat.add_left_comm]

/-- Two buffers that agree on the offsets read give the same list. -/
theorem Memory.readBytes_congr {m m' : Memory} {off n : Nat} (h : ∀ k, off ≤ k → k < off + n → m.read k = m'.read k) :
    m.readBytes off n = m'.readBytes off n := by
  induction n generalizing off with
  | zero => rfl
  | succ n ih =>
    simp only [Memory.readBytes]
    rw [h off (by omega) (by omega), ih fun k h1 h2 => h k (by omega) (by omega)]

/-- Storing a byte list leaves every offset outside it alone. -/
theorem Memory.read_writeBytes_other (m : Memory) {off k : Nat} (bs : List Byte) (h : k < off ∨ off + bs.length ≤ k) :
    (m.writeBytes off bs).read k = m.read k := by
  induction bs generalizing m off with
  | nil => rfl
  | cons b bs ih =>
    simp only [List.length_cons] at h
    rw [Memory.writeBytes, ih _ (by omega), Memory.read_write_other _ _ (by omega)]

theorem Memory.pairwise_writeBytes {m : Memory} (hm : m.Pairwise fun x y => x.1 < y.1) (off : Nat) (bs : List Byte) :
    (m.writeBytes off bs).Pairwise fun x y => x.1 < y.1 := by
  induction bs generalizing m off with
  | nil => exact hm
  | cons b bs ih => exact ih (Memory.pairwise_write hm off b) _

/-- A byte list stored is read back. -/
theorem Memory.readBytes_writeBytes {m : Memory} (hm : m.Pairwise fun x y => x.1 < y.1) (off : Nat) (bs : List Byte) :
    (m.writeBytes off bs).readBytes off bs.length = bs := by
  induction bs generalizing m off with
  | nil => rfl
  | cons b bs ih =>
    simp only [Memory.writeBytes, List.length_cons, Memory.readBytes]
    rw [ih (Memory.pairwise_write hm off b), Memory.read_writeBytes_other _ _ (by omega), Memory.read_write_same hm]

/-- Storing a byte list within the buffer keeps the canonical form. -/
theorem Memory.wf_writeBytes {m : Memory} (hm : m.wf) {off : Nat} {bs : List Byte}
    (h : off + bs.length ≤ Config.maxFrame) : (m.writeBytes off bs).wf := by
  induction bs generalizing m off with
  | nil => exact hm
  | cons b bs ih =>
    simp only [List.length_cons] at h
    exact ih (Memory.wf_write hm (by omega) b) (by omega)

end Sys2Proof.Machine
end

