-- ==== Sys2Proof/Laws/State.lean ====
section
/-! SUPPORT. One lemma per field per state update, true by `rfl`, so that no later proof unfolds a record update. -/

namespace Sys2Proof.Machine

variable (s : State)

/-! `setPhase` -/

@[simp] theorem State.setPhase_addr (p : Phase) : (s.setPhase p).addr = s.addr := rfl
@[simp] theorem State.setPhase_baud (p : Phase) : (s.setPhase p).baud = s.baud := rfl
@[simp] theorem State.setPhase_opened (p : Phase) : (s.setPhase p).opened = s.opened := rfl
@[simp] theorem State.setPhase_lastReq (p : Phase) : (s.setPhase p).lastReq = s.lastReq := rfl
@[simp] theorem State.setPhase_phase (p : Phase) : (s.setPhase p).phase = p := rfl
@[simp] theorem State.setPhase_txbuf (p : Phase) : (s.setPhase p).txbuf = s.txbuf := rfl
@[simp] theorem State.setPhase_txLen (p : Phase) : (s.setPhase p).txLen = s.txLen := rfl
@[simp] theorem State.setPhase_rxbuf (p : Phase) : (s.setPhase p).rxbuf = s.rxbuf := rfl
@[simp] theorem State.setPhase_rxCount (p : Phase) : (s.setPhase p).rxCount = s.rxCount := rfl
@[simp] theorem State.setPhase_rxLen (p : Phase) : (s.setPhase p).rxLen = s.rxLen := rfl
@[simp] theorem State.setPhase_crc (p : Phase) : (s.setPhase p).crc = s.crc := rfl
@[simp] theorem State.setPhase_rxDeadline (p : Phase) : (s.setPhase p).rxDeadline = s.rxDeadline := rfl
@[simp] theorem State.setPhase_breakUntil (p : Phase) : (s.setPhase p).breakUntil = s.breakUntil := rfl
@[simp] theorem State.setPhase_curCmd (p : Phase) : (s.setPhase p).curCmd = s.curCmd := rfl
@[simp] theorem State.setPhase_pendErr (p : Phase) : (s.setPhase p).pendErr = s.pendErr := rfl
@[simp] theorem State.setPhase_res (p : Phase) : (s.setPhase p).res = s.res := rfl
@[simp] theorem State.setPhase_curOp (p : Phase) : (s.setPhase p).curOp = s.curOp := rfl
@[simp] theorem State.setPhase_curPayload (p : Phase) : (s.setPhase p).curPayload = s.curPayload := rfl
@[simp] theorem State.setPhase_message (p : Phase) : (s.setPhase p).message = s.message := rfl
@[simp] theorem State.setPhase_params (p : Phase) : (s.setPhase p).params = s.params := rfl
@[simp] theorem State.setPhase_port (p : Phase) : (s.setPhase p).port = s.port := rfl
@[simp] theorem State.setPhase_outQueue (p : Phase) : (s.setPhase p).outQueue = s.outQueue := rfl
@[simp] theorem State.setPhase_inQueue (p : Phase) : (s.setPhase p).inQueue = s.inQueue := rfl
@[simp] theorem State.setPhase_line (p : Phase) : (s.setPhase p).line = s.line := rfl
@[simp] theorem State.setPhase_breakOn (p : Phase) : (s.setPhase p).breakOn = s.breakOn := rfl
@[simp] theorem State.setPhase_now (p : Phase) : (s.setPhase p).now = s.now := rfl
@[simp] theorem State.setPhase_openOk (p : Phase) : (s.setPhase p).openOk = s.openOk := rfl
@[simp] theorem State.setPhase_writeFaults (p : Phase) : (s.setPhase p).writeFaults = s.writeFaults := rfl
@[simp] theorem State.setPhase_script (p : Phase) : (s.setPhase p).script = s.script := rfl
@[simp] theorem State.setPhase_ret (p : Phase) : (s.setPhase p).ret = s.ret := rfl
@[simp] theorem State.setPhase_ties (p : Phase) : (s.setPhase p).ties = s.ties := rfl
@[simp] theorem State.setPhase_ended (p : Phase) : (s.setPhase p).ended = s.ended := rfl

/-! `setRes` -/

@[simp] theorem State.setRes_addr (r : Result) : (s.setRes r).addr = s.addr := rfl
@[simp] theorem State.setRes_baud (r : Result) : (s.setRes r).baud = s.baud := rfl
@[simp] theorem State.setRes_opened (r : Result) : (s.setRes r).opened = s.opened := rfl
@[simp] theorem State.setRes_lastReq (r : Result) : (s.setRes r).lastReq = s.lastReq := rfl
@[simp] theorem State.setRes_phase (r : Result) : (s.setRes r).phase = s.phase := rfl
@[simp] theorem State.setRes_txbuf (r : Result) : (s.setRes r).txbuf = s.txbuf := rfl
@[simp] theorem State.setRes_txLen (r : Result) : (s.setRes r).txLen = s.txLen := rfl
@[simp] theorem State.setRes_rxbuf (r : Result) : (s.setRes r).rxbuf = s.rxbuf := rfl
@[simp] theorem State.setRes_rxCount (r : Result) : (s.setRes r).rxCount = s.rxCount := rfl
@[simp] theorem State.setRes_rxLen (r : Result) : (s.setRes r).rxLen = s.rxLen := rfl
@[simp] theorem State.setRes_crc (r : Result) : (s.setRes r).crc = s.crc := rfl
@[simp] theorem State.setRes_rxDeadline (r : Result) : (s.setRes r).rxDeadline = s.rxDeadline := rfl
@[simp] theorem State.setRes_breakUntil (r : Result) : (s.setRes r).breakUntil = s.breakUntil := rfl
@[simp] theorem State.setRes_curCmd (r : Result) : (s.setRes r).curCmd = s.curCmd := rfl
@[simp] theorem State.setRes_pendErr (r : Result) : (s.setRes r).pendErr = s.pendErr := rfl
@[simp] theorem State.setRes_res (r : Result) : (s.setRes r).res = some r := rfl
@[simp] theorem State.setRes_curOp (r : Result) : (s.setRes r).curOp = s.curOp := rfl
@[simp] theorem State.setRes_curPayload (r : Result) : (s.setRes r).curPayload = s.curPayload := rfl
@[simp] theorem State.setRes_message (r : Result) : (s.setRes r).message = s.message := rfl
@[simp] theorem State.setRes_params (r : Result) : (s.setRes r).params = s.params := rfl
@[simp] theorem State.setRes_port (r : Result) : (s.setRes r).port = s.port := rfl
@[simp] theorem State.setRes_outQueue (r : Result) : (s.setRes r).outQueue = s.outQueue := rfl
@[simp] theorem State.setRes_inQueue (r : Result) : (s.setRes r).inQueue = s.inQueue := rfl
@[simp] theorem State.setRes_line (r : Result) : (s.setRes r).line = s.line := rfl
@[simp] theorem State.setRes_breakOn (r : Result) : (s.setRes r).breakOn = s.breakOn := rfl
@[simp] theorem State.setRes_now (r : Result) : (s.setRes r).now = s.now := rfl
@[simp] theorem State.setRes_openOk (r : Result) : (s.setRes r).openOk = s.openOk := rfl
@[simp] theorem State.setRes_writeFaults (r : Result) : (s.setRes r).writeFaults = s.writeFaults := rfl
@[simp] theorem State.setRes_script (r : Result) : (s.setRes r).script = s.script := rfl
@[simp] theorem State.setRes_ret (r : Result) : (s.setRes r).ret = s.ret := rfl
@[simp] theorem State.setRes_ties (r : Result) : (s.setRes r).ties = s.ties := rfl
@[simp] theorem State.setRes_ended (r : Result) : (s.setRes r).ended = s.ended := rfl

/-! `setRet` -/

@[simp] theorem State.setRet_addr (v : RetVal) : (s.setRet v).addr = s.addr := rfl
@[simp] theorem State.setRet_baud (v : RetVal) : (s.setRet v).baud = s.baud := rfl
@[simp] theorem State.setRet_opened (v : RetVal) : (s.setRet v).opened = s.opened := rfl
@[simp] theorem State.setRet_lastReq (v : RetVal) : (s.setRet v).lastReq = s.lastReq := rfl
@[simp] theorem State.setRet_phase (v : RetVal) : (s.setRet v).phase = s.phase := rfl
@[simp] theorem State.setRet_txbuf (v : RetVal) : (s.setRet v).txbuf = s.txbuf := rfl
@[simp] theorem State.setRet_txLen (v : RetVal) : (s.setRet v).txLen = s.txLen := rfl
@[simp] theorem State.setRet_rxbuf (v : RetVal) : (s.setRet v).rxbuf = s.rxbuf := rfl
@[simp] theorem State.setRet_rxCount (v : RetVal) : (s.setRet v).rxCount = s.rxCount := rfl
@[simp] theorem State.setRet_rxLen (v : RetVal) : (s.setRet v).rxLen = s.rxLen := rfl
@[simp] theorem State.setRet_crc (v : RetVal) : (s.setRet v).crc = s.crc := rfl
@[simp] theorem State.setRet_rxDeadline (v : RetVal) : (s.setRet v).rxDeadline = s.rxDeadline := rfl
@[simp] theorem State.setRet_breakUntil (v : RetVal) : (s.setRet v).breakUntil = s.breakUntil := rfl
@[simp] theorem State.setRet_curCmd (v : RetVal) : (s.setRet v).curCmd = s.curCmd := rfl
@[simp] theorem State.setRet_pendErr (v : RetVal) : (s.setRet v).pendErr = s.pendErr := rfl
@[simp] theorem State.setRet_res (v : RetVal) : (s.setRet v).res = s.res := rfl
@[simp] theorem State.setRet_curOp (v : RetVal) : (s.setRet v).curOp = s.curOp := rfl
@[simp] theorem State.setRet_curPayload (v : RetVal) : (s.setRet v).curPayload = s.curPayload := rfl
@[simp] theorem State.setRet_message (v : RetVal) : (s.setRet v).message = s.message := rfl
@[simp] theorem State.setRet_params (v : RetVal) : (s.setRet v).params = s.params := rfl
@[simp] theorem State.setRet_port (v : RetVal) : (s.setRet v).port = s.port := rfl
@[simp] theorem State.setRet_outQueue (v : RetVal) : (s.setRet v).outQueue = s.outQueue := rfl
@[simp] theorem State.setRet_inQueue (v : RetVal) : (s.setRet v).inQueue = s.inQueue := rfl
@[simp] theorem State.setRet_line (v : RetVal) : (s.setRet v).line = s.line := rfl
@[simp] theorem State.setRet_breakOn (v : RetVal) : (s.setRet v).breakOn = s.breakOn := rfl
@[simp] theorem State.setRet_now (v : RetVal) : (s.setRet v).now = s.now := rfl
@[simp] theorem State.setRet_openOk (v : RetVal) : (s.setRet v).openOk = s.openOk := rfl
@[simp] theorem State.setRet_writeFaults (v : RetVal) : (s.setRet v).writeFaults = s.writeFaults := rfl
@[simp] theorem State.setRet_script (v : RetVal) : (s.setRet v).script = s.script := rfl
@[simp] theorem State.setRet_ret (v : RetVal) : (s.setRet v).ret = some v := rfl
@[simp] theorem State.setRet_ties (v : RetVal) : (s.setRet v).ties = s.ties := rfl
@[simp] theorem State.setRet_ended (v : RetVal) : (s.setRet v).ended = s.ended := rfl

/-! `setPendErr` -/

@[simp] theorem State.setPendErr_addr (e : Err) : (s.setPendErr e).addr = s.addr := rfl
@[simp] theorem State.setPendErr_baud (e : Err) : (s.setPendErr e).baud = s.baud := rfl
@[simp] theorem State.setPendErr_opened (e : Err) : (s.setPendErr e).opened = s.opened := rfl
@[simp] theorem State.setPendErr_lastReq (e : Err) : (s.setPendErr e).lastReq = s.lastReq := rfl
@[simp] theorem State.setPendErr_phase (e : Err) : (s.setPendErr e).phase = s.phase := rfl
@[simp] theorem State.setPendErr_txbuf (e : Err) : (s.setPendErr e).txbuf = s.txbuf := rfl
@[simp] theorem State.setPendErr_txLen (e : Err) : (s.setPendErr e).txLen = s.txLen := rfl
@[simp] theorem State.setPendErr_rxbuf (e : Err) : (s.setPendErr e).rxbuf = s.rxbuf := rfl
@[simp] theorem State.setPendErr_rxCount (e : Err) : (s.setPendErr e).rxCount = s.rxCount := rfl
@[simp] theorem State.setPendErr_rxLen (e : Err) : (s.setPendErr e).rxLen = s.rxLen := rfl
@[simp] theorem State.setPendErr_crc (e : Err) : (s.setPendErr e).crc = s.crc := rfl
@[simp] theorem State.setPendErr_rxDeadline (e : Err) : (s.setPendErr e).rxDeadline = s.rxDeadline := rfl
@[simp] theorem State.setPendErr_breakUntil (e : Err) : (s.setPendErr e).breakUntil = s.breakUntil := rfl
@[simp] theorem State.setPendErr_curCmd (e : Err) : (s.setPendErr e).curCmd = s.curCmd := rfl
@[simp] theorem State.setPendErr_pendErr (e : Err) : (s.setPendErr e).pendErr = some e := rfl
@[simp] theorem State.setPendErr_res (e : Err) : (s.setPendErr e).res = s.res := rfl
@[simp] theorem State.setPendErr_curOp (e : Err) : (s.setPendErr e).curOp = s.curOp := rfl
@[simp] theorem State.setPendErr_curPayload (e : Err) : (s.setPendErr e).curPayload = s.curPayload := rfl
@[simp] theorem State.setPendErr_message (e : Err) : (s.setPendErr e).message = s.message := rfl
@[simp] theorem State.setPendErr_params (e : Err) : (s.setPendErr e).params = s.params := rfl
@[simp] theorem State.setPendErr_port (e : Err) : (s.setPendErr e).port = s.port := rfl
@[simp] theorem State.setPendErr_outQueue (e : Err) : (s.setPendErr e).outQueue = s.outQueue := rfl
@[simp] theorem State.setPendErr_inQueue (e : Err) : (s.setPendErr e).inQueue = s.inQueue := rfl
@[simp] theorem State.setPendErr_line (e : Err) : (s.setPendErr e).line = s.line := rfl
@[simp] theorem State.setPendErr_breakOn (e : Err) : (s.setPendErr e).breakOn = s.breakOn := rfl
@[simp] theorem State.setPendErr_now (e : Err) : (s.setPendErr e).now = s.now := rfl
@[simp] theorem State.setPendErr_openOk (e : Err) : (s.setPendErr e).openOk = s.openOk := rfl
@[simp] theorem State.setPendErr_writeFaults (e : Err) : (s.setPendErr e).writeFaults = s.writeFaults := rfl
@[simp] theorem State.setPendErr_script (e : Err) : (s.setPendErr e).script = s.script := rfl
@[simp] theorem State.setPendErr_ret (e : Err) : (s.setPendErr e).ret = s.ret := rfl
@[simp] theorem State.setPendErr_ties (e : Err) : (s.setPendErr e).ties = s.ties := rfl
@[simp] theorem State.setPendErr_ended (e : Err) : (s.setPendErr e).ended = s.ended := rfl

/-! `loadTx` -/

@[simp] theorem State.loadTx_addr (f : List Byte) : (s.loadTx f).addr = s.addr := rfl
@[simp] theorem State.loadTx_baud (f : List Byte) : (s.loadTx f).baud = s.baud := rfl
@[simp] theorem State.loadTx_opened (f : List Byte) : (s.loadTx f).opened = s.opened := rfl
@[simp] theorem State.loadTx_lastReq (f : List Byte) : (s.loadTx f).lastReq = s.lastReq := rfl
@[simp] theorem State.loadTx_phase (f : List Byte) : (s.loadTx f).phase = s.phase := rfl
@[simp] theorem State.loadTx_txbuf (f : List Byte) : (s.loadTx f).txbuf = s.txbuf.writeBytes 0 f := rfl
@[simp] theorem State.loadTx_txLen (f : List Byte) : (s.loadTx f).txLen = f.length := rfl
@[simp] theorem State.loadTx_rxbuf (f : List Byte) : (s.loadTx f).rxbuf = s.rxbuf := rfl
@[simp] theorem State.loadTx_rxCount (f : List Byte) : (s.loadTx f).rxCount = s.rxCount := rfl
@[simp] theorem State.loadTx_rxLen (f : List Byte) : (s.loadTx f).rxLen = s.rxLen := rfl
@[simp] theorem State.loadTx_crc (f : List Byte) : (s.loadTx f).crc = s.crc := rfl
@[simp] theorem State.loadTx_rxDeadline (f : List Byte) : (s.loadTx f).rxDeadline = s.rxDeadline := rfl
@[simp] theorem State.loadTx_breakUntil (f : List Byte) : (s.loadTx f).breakUntil = s.breakUntil := rfl
@[simp] theorem State.loadTx_curCmd (f : List Byte) : (s.loadTx f).curCmd = s.curCmd := rfl
@[simp] theorem State.loadTx_pendErr (f : List Byte) : (s.loadTx f).pendErr = s.pendErr := rfl
@[simp] theorem State.loadTx_res (f : List Byte) : (s.loadTx f).res = s.res := rfl
@[simp] theorem State.loadTx_curOp (f : List Byte) : (s.loadTx f).curOp = s.curOp := rfl
@[simp] theorem State.loadTx_curPayload (f : List Byte) : (s.loadTx f).curPayload = s.curPayload := rfl
@[simp] theorem State.loadTx_message (f : List Byte) : (s.loadTx f).message = s.message := rfl
@[simp] theorem State.loadTx_params (f : List Byte) : (s.loadTx f).params = s.params := rfl
@[simp] theorem State.loadTx_port (f : List Byte) : (s.loadTx f).port = s.port := rfl
@[simp] theorem State.loadTx_outQueue (f : List Byte) : (s.loadTx f).outQueue = s.outQueue := rfl
@[simp] theorem State.loadTx_inQueue (f : List Byte) : (s.loadTx f).inQueue = s.inQueue := rfl
@[simp] theorem State.loadTx_line (f : List Byte) : (s.loadTx f).line = s.line := rfl
@[simp] theorem State.loadTx_breakOn (f : List Byte) : (s.loadTx f).breakOn = s.breakOn := rfl
@[simp] theorem State.loadTx_now (f : List Byte) : (s.loadTx f).now = s.now := rfl
@[simp] theorem State.loadTx_openOk (f : List Byte) : (s.loadTx f).openOk = s.openOk := rfl
@[simp] theorem State.loadTx_writeFaults (f : List Byte) : (s.loadTx f).writeFaults = s.writeFaults := rfl
@[simp] theorem State.loadTx_script (f : List Byte) : (s.loadTx f).script = s.script := rfl
@[simp] theorem State.loadTx_ret (f : List Byte) : (s.loadTx f).ret = s.ret := rfl
@[simp] theorem State.loadTx_ties (f : List Byte) : (s.loadTx f).ties = s.ties := rfl
@[simp] theorem State.loadTx_ended (f : List Byte) : (s.loadTx f).ended = s.ended := rfl

/-! `storeRx` -/

@[simp] theorem State.storeRx_addr (b : Byte) : (s.storeRx b).addr = s.addr := rfl
@[simp] theorem State.storeRx_baud (b : Byte) : (s.storeRx b).baud = s.baud := rfl
@[simp] theorem State.storeRx_opened (b : Byte) : (s.storeRx b).opened = s.opened := rfl
@[simp] theorem State.storeRx_lastReq (b : Byte) : (s.storeRx b).lastReq = s.lastReq := rfl
@[simp] theorem State.storeRx_phase (b : Byte) : (s.storeRx b).phase = s.phase := rfl
@[simp] theorem State.storeRx_txbuf (b : Byte) : (s.storeRx b).txbuf = s.txbuf := rfl
@[simp] theorem State.storeRx_txLen (b : Byte) : (s.storeRx b).txLen = s.txLen := rfl
@[simp] theorem State.storeRx_rxbuf (b : Byte) : (s.storeRx b).rxbuf = s.rxbuf.write s.rxCount b := rfl
@[simp] theorem State.storeRx_rxCount (b : Byte) : (s.storeRx b).rxCount = s.rxCount + 1 := rfl
@[simp] theorem State.storeRx_rxLen (b : Byte) : (s.storeRx b).rxLen = s.rxLen := rfl
@[simp] theorem State.storeRx_crc (b : Byte) : (s.storeRx b).crc = s.crc := rfl
@[simp] theorem State.storeRx_rxDeadline (b : Byte) : (s.storeRx b).rxDeadline = s.rxDeadline := rfl
@[simp] theorem State.storeRx_breakUntil (b : Byte) : (s.storeRx b).breakUntil = s.breakUntil := rfl
@[simp] theorem State.storeRx_curCmd (b : Byte) : (s.storeRx b).curCmd = s.curCmd := rfl
@[simp] theorem State.storeRx_pendErr (b : Byte) : (s.storeRx b).pendErr = s.pendErr := rfl
@[simp] theorem State.storeRx_res (b : Byte) : (s.storeRx b).res = s.res := rfl
@[simp] theorem State.storeRx_curOp (b : Byte) : (s.storeRx b).curOp = s.curOp := rfl
@[simp] theorem State.storeRx_curPayload (b : Byte) : (s.storeRx b).curPayload = s.curPayload := rfl
@[simp] theorem State.storeRx_message (b : Byte) : (s.storeRx b).message = s.message := rfl
@[simp] theorem State.storeRx_params (b : Byte) : (s.storeRx b).params = s.params := rfl
@[simp] theorem State.storeRx_port (b : Byte) : (s.storeRx b).port = s.port := rfl
@[simp] theorem State.storeRx_outQueue (b : Byte) : (s.storeRx b).outQueue = s.outQueue := rfl
@[simp] theorem State.storeRx_inQueue (b : Byte) : (s.storeRx b).inQueue = s.inQueue := rfl
@[simp] theorem State.storeRx_line (b : Byte) : (s.storeRx b).line = s.line := rfl
@[simp] theorem State.storeRx_breakOn (b : Byte) : (s.storeRx b).breakOn = s.breakOn := rfl
@[simp] theorem State.storeRx_now (b : Byte) : (s.storeRx b).now = s.now := rfl
@[simp] theorem State.storeRx_openOk (b : Byte) : (s.storeRx b).openOk = s.openOk := rfl
@[simp] theorem State.storeRx_writeFaults (b : Byte) : (s.storeRx b).writeFaults = s.writeFaults := rfl
@[simp] theorem State.storeRx_script (b : Byte) : (s.storeRx b).script = s.script := rfl
@[simp] theorem State.storeRx_ret (b : Byte) : (s.storeRx b).ret = s.ret := rfl
@[simp] theorem State.storeRx_ties (b : Byte) : (s.storeRx b).ties = s.ties := rfl
@[simp] theorem State.storeRx_ended (b : Byte) : (s.storeRx b).ended = s.ended := rfl

/-! `runCrc` -/

@[simp] theorem State.runCrc_addr (b : Byte) : (s.runCrc b).addr = s.addr := rfl
@[simp] theorem State.runCrc_baud (b : Byte) : (s.runCrc b).baud = s.baud := rfl
@[simp] theorem State.runCrc_opened (b : Byte) : (s.runCrc b).opened = s.opened := rfl
@[simp] theorem State.runCrc_lastReq (b : Byte) : (s.runCrc b).lastReq = s.lastReq := rfl
@[simp] theorem State.runCrc_phase (b : Byte) : (s.runCrc b).phase = s.phase := rfl
@[simp] theorem State.runCrc_txbuf (b : Byte) : (s.runCrc b).txbuf = s.txbuf := rfl
@[simp] theorem State.runCrc_txLen (b : Byte) : (s.runCrc b).txLen = s.txLen := rfl
@[simp] theorem State.runCrc_rxbuf (b : Byte) : (s.runCrc b).rxbuf = s.rxbuf := rfl
@[simp] theorem State.runCrc_rxCount (b : Byte) : (s.runCrc b).rxCount = s.rxCount := rfl
@[simp] theorem State.runCrc_rxLen (b : Byte) : (s.runCrc b).rxLen = s.rxLen := rfl
@[simp] theorem State.runCrc_crc (b : Byte) : (s.runCrc b).crc = crcUpdate s.crc b := rfl
@[simp] theorem State.runCrc_rxDeadline (b : Byte) : (s.runCrc b).rxDeadline = s.rxDeadline := rfl
@[simp] theorem State.runCrc_breakUntil (b : Byte) : (s.runCrc b).breakUntil = s.breakUntil := rfl
@[simp] theorem State.runCrc_curCmd (b : Byte) : (s.runCrc b).curCmd = s.curCmd := rfl
@[simp] theorem State.runCrc_pendErr (b : Byte) : (s.runCrc b).pendErr = s.pendErr := rfl
@[simp] theorem State.runCrc_res (b : Byte) : (s.runCrc b).res = s.res := rfl
@[simp] theorem State.runCrc_curOp (b : Byte) : (s.runCrc b).curOp = s.curOp := rfl
@[simp] theorem State.runCrc_curPayload (b : Byte) : (s.runCrc b).curPayload = s.curPayload := rfl
@[simp] theorem State.runCrc_message (b : Byte) : (s.runCrc b).message = s.message := rfl
@[simp] theorem State.runCrc_params (b : Byte) : (s.runCrc b).params = s.params := rfl
@[simp] theorem State.runCrc_port (b : Byte) : (s.runCrc b).port = s.port := rfl
@[simp] theorem State.runCrc_outQueue (b : Byte) : (s.runCrc b).outQueue = s.outQueue := rfl
@[simp] theorem State.runCrc_inQueue (b : Byte) : (s.runCrc b).inQueue = s.inQueue := rfl
@[simp] theorem State.runCrc_line (b : Byte) : (s.runCrc b).line = s.line := rfl
@[simp] theorem State.runCrc_breakOn (b : Byte) : (s.runCrc b).breakOn = s.breakOn := rfl
@[simp] theorem State.runCrc_now (b : Byte) : (s.runCrc b).now = s.now := rfl
@[simp] theorem State.runCrc_openOk (b : Byte) : (s.runCrc b).openOk = s.openOk := rfl
@[simp] theorem State.runCrc_writeFaults (b : Byte) : (s.runCrc b).writeFaults = s.writeFaults := rfl
@[simp] theorem State.runCrc_script (b : Byte) : (s.runCrc b).script = s.script := rfl
@[simp] theorem State.runCrc_ret (b : Byte) : (s.runCrc b).ret = s.ret := rfl
@[simp] theorem State.runCrc_ties (b : Byte) : (s.runCrc b).ties = s.ties := rfl
@[simp] theorem State.runCrc_ended (b : Byte) : (s.runCrc b).ended = s.ended := rfl

/-! `clearInput` -/

@[simp] theorem State.clearInput_addr : s.clearInput.addr = s.addr := rfl
@[simp] theorem State.clearInput_baud : s.clearInput.baud = s.baud := rfl
@[simp] theorem State.clearInput_opened : s.clearInput.opened = s.opened := rfl
@[simp] theorem State.clearInput_lastReq : s.clearInput.lastReq = s.lastReq := rfl
@[simp] theorem State.clearInput_phase : s.clearInput.phase = s.phase := rfl
@[simp] theorem State.clearInput_txbuf : s.clearInput.txbuf = s.txbuf := rfl
@[simp] theorem State.clearInput_txLen : s.clearInput.txLen = s.txLen := rfl
@[simp] theorem State.clearInput_rxbuf : s.clearInput.rxbuf = s.rxbuf := rfl
@[simp] theorem State.clearInput_rxCount : s.clearInput.rxCount = s.rxCount := rfl
@[simp] theorem State.clearInput_rxLen : s.clearInput.rxLen = s.rxLen := rfl
@[simp] theorem State.clearInput_crc : s.clearInput.crc = s.crc := rfl
@[simp] theorem State.clearInput_rxDeadline : s.clearInput.rxDeadline = s.rxDeadline := rfl
@[simp] theorem State.clearInput_breakUntil : s.clearInput.breakUntil = s.breakUntil := rfl
@[simp] theorem State.clearInput_curCmd : s.clearInput.curCmd = s.curCmd := rfl
@[simp] theorem State.clearInput_pendErr : s.clearInput.pendErr = s.pendErr := rfl
@[simp] theorem State.clearInput_res : s.clearInput.res = s.res := rfl
@[simp] theorem State.clearInput_curOp : s.clearInput.curOp = s.curOp := rfl
@[simp] theorem State.clearInput_curPayload : s.clearInput.curPayload = s.curPayload := rfl
@[simp] theorem State.clearInput_message : s.clearInput.message = s.message := rfl
@[simp] theorem State.clearInput_params : s.clearInput.params = s.params := rfl
@[simp] theorem State.clearInput_port : s.clearInput.port = s.port := rfl
@[simp] theorem State.clearInput_outQueue : s.clearInput.outQueue = s.outQueue := rfl
@[simp] theorem State.clearInput_inQueue : s.clearInput.inQueue = [] := rfl
@[simp] theorem State.clearInput_line : s.clearInput.line = s.line := rfl
@[simp] theorem State.clearInput_breakOn : s.clearInput.breakOn = s.breakOn := rfl
@[simp] theorem State.clearInput_now : s.clearInput.now = s.now := rfl
@[simp] theorem State.clearInput_openOk : s.clearInput.openOk = s.openOk := rfl
@[simp] theorem State.clearInput_writeFaults : s.clearInput.writeFaults = s.writeFaults := rfl
@[simp] theorem State.clearInput_script : s.clearInput.script = s.script := rfl
@[simp] theorem State.clearInput_ret : s.clearInput.ret = s.ret := rfl
@[simp] theorem State.clearInput_ties : s.clearInput.ties = s.ties := rfl
@[simp] theorem State.clearInput_ended : s.clearInput.ended = s.ended := rfl

/-! `assertBreak` -/

@[simp] theorem State.assertBreak_addr : s.assertBreak.addr = s.addr := rfl
@[simp] theorem State.assertBreak_baud : s.assertBreak.baud = s.baud := rfl
@[simp] theorem State.assertBreak_opened : s.assertBreak.opened = s.opened := rfl
@[simp] theorem State.assertBreak_lastReq : s.assertBreak.lastReq = s.lastReq := rfl
@[simp] theorem State.assertBreak_phase : s.assertBreak.phase = s.phase := rfl
@[simp] theorem State.assertBreak_txbuf : s.assertBreak.txbuf = s.txbuf := rfl
@[simp] theorem State.assertBreak_txLen : s.assertBreak.txLen = s.txLen := rfl
@[simp] theorem State.assertBreak_rxbuf : s.assertBreak.rxbuf = s.rxbuf := rfl
@[simp] theorem State.assertBreak_rxCount : s.assertBreak.rxCount = s.rxCount := rfl
@[simp] theorem State.assertBreak_rxLen : s.assertBreak.rxLen = s.rxLen := rfl
@[simp] theorem State.assertBreak_crc : s.assertBreak.crc = s.crc := rfl
@[simp] theorem State.assertBreak_rxDeadline : s.assertBreak.rxDeadline = s.rxDeadline := rfl
@[simp] theorem State.assertBreak_breakUntil : s.assertBreak.breakUntil = s.breakUntil := rfl
@[simp] theorem State.assertBreak_curCmd : s.assertBreak.curCmd = s.curCmd := rfl
@[simp] theorem State.assertBreak_pendErr : s.assertBreak.pendErr = s.pendErr := rfl
@[simp] theorem State.assertBreak_res : s.assertBreak.res = s.res := rfl
@[simp] theorem State.assertBreak_curOp : s.assertBreak.curOp = s.curOp := rfl
@[simp] theorem State.assertBreak_curPayload : s.assertBreak.curPayload = s.curPayload := rfl
@[simp] theorem State.assertBreak_message : s.assertBreak.message = s.message := rfl
@[simp] theorem State.assertBreak_params : s.assertBreak.params = s.params := rfl
@[simp] theorem State.assertBreak_port : s.assertBreak.port = s.port := rfl
@[simp] theorem State.assertBreak_outQueue : s.assertBreak.outQueue = s.outQueue := rfl
@[simp] theorem State.assertBreak_inQueue : s.assertBreak.inQueue = s.inQueue := rfl
@[simp] theorem State.assertBreak_line : s.assertBreak.line = s.line := rfl
@[simp] theorem State.assertBreak_breakOn : s.assertBreak.breakOn = true := rfl
@[simp] theorem State.assertBreak_now : s.assertBreak.now = s.now := rfl
@[simp] theorem State.assertBreak_openOk : s.assertBreak.openOk = s.openOk := rfl
@[simp] theorem State.assertBreak_writeFaults : s.assertBreak.writeFaults = s.writeFaults := rfl
@[simp] theorem State.assertBreak_script : s.assertBreak.script = s.script := rfl
@[simp] theorem State.assertBreak_ret : s.assertBreak.ret = s.ret := rfl
@[simp] theorem State.assertBreak_ties : s.assertBreak.ties = s.ties := rfl
@[simp] theorem State.assertBreak_ended : s.assertBreak.ended = s.ended := rfl

/-! `clearBreak` -/

@[simp] theorem State.clearBreak_addr : s.clearBreak.addr = s.addr := rfl
@[simp] theorem State.clearBreak_baud : s.clearBreak.baud = s.baud := rfl
@[simp] theorem State.clearBreak_opened : s.clearBreak.opened = s.opened := rfl
@[simp] theorem State.clearBreak_lastReq : s.clearBreak.lastReq = s.lastReq := rfl
@[simp] theorem State.clearBreak_phase : s.clearBreak.phase = s.phase := rfl
@[simp] theorem State.clearBreak_txbuf : s.clearBreak.txbuf = s.txbuf := rfl
@[simp] theorem State.clearBreak_txLen : s.clearBreak.txLen = s.txLen := rfl
@[simp] theorem State.clearBreak_rxbuf : s.clearBreak.rxbuf = s.rxbuf := rfl
@[simp] theorem State.clearBreak_rxCount : s.clearBreak.rxCount = s.rxCount := rfl
@[simp] theorem State.clearBreak_rxLen : s.clearBreak.rxLen = s.rxLen := rfl
@[simp] theorem State.clearBreak_crc : s.clearBreak.crc = s.crc := rfl
@[simp] theorem State.clearBreak_rxDeadline : s.clearBreak.rxDeadline = s.rxDeadline := rfl
@[simp] theorem State.clearBreak_breakUntil : s.clearBreak.breakUntil = s.breakUntil := rfl
@[simp] theorem State.clearBreak_curCmd : s.clearBreak.curCmd = s.curCmd := rfl
@[simp] theorem State.clearBreak_pendErr : s.clearBreak.pendErr = s.pendErr := rfl
@[simp] theorem State.clearBreak_res : s.clearBreak.res = s.res := rfl
@[simp] theorem State.clearBreak_curOp : s.clearBreak.curOp = s.curOp := rfl
@[simp] theorem State.clearBreak_curPayload : s.clearBreak.curPayload = s.curPayload := rfl
@[simp] theorem State.clearBreak_message : s.clearBreak.message = s.message := rfl
@[simp] theorem State.clearBreak_params : s.clearBreak.params = s.params := rfl
@[simp] theorem State.clearBreak_port : s.clearBreak.port = s.port := rfl
@[simp] theorem State.clearBreak_outQueue : s.clearBreak.outQueue = s.outQueue := rfl
@[simp] theorem State.clearBreak_inQueue : s.clearBreak.inQueue = s.inQueue := rfl
@[simp] theorem State.clearBreak_line : s.clearBreak.line = s.line := rfl
@[simp] theorem State.clearBreak_breakOn : s.clearBreak.breakOn = false := rfl
@[simp] theorem State.clearBreak_now : s.clearBreak.now = s.now := rfl
@[simp] theorem State.clearBreak_openOk : s.clearBreak.openOk = s.openOk := rfl
@[simp] theorem State.clearBreak_writeFaults : s.clearBreak.writeFaults = s.writeFaults := rfl
@[simp] theorem State.clearBreak_script : s.clearBreak.script = s.script := rfl
@[simp] theorem State.clearBreak_ret : s.clearBreak.ret = s.ret := rfl
@[simp] theorem State.clearBreak_ties : s.clearBreak.ties = s.ties := rfl
@[simp] theorem State.clearBreak_ended : s.clearBreak.ended = s.ended := rfl

/-! `drain` -/

@[simp] theorem State.drain_addr (n : Nat) : (s.drain n).addr = s.addr := rfl
@[simp] theorem State.drain_baud (n : Nat) : (s.drain n).baud = s.baud := rfl
@[simp] theorem State.drain_opened (n : Nat) : (s.drain n).opened = s.opened := rfl
@[simp] theorem State.drain_lastReq (n : Nat) : (s.drain n).lastReq = s.lastReq := rfl
@[simp] theorem State.drain_phase (n : Nat) : (s.drain n).phase = s.phase := rfl
@[simp] theorem State.drain_txbuf (n : Nat) : (s.drain n).txbuf = s.txbuf := rfl
@[simp] theorem State.drain_txLen (n : Nat) : (s.drain n).txLen = s.txLen := rfl
@[simp] theorem State.drain_rxbuf (n : Nat) : (s.drain n).rxbuf = s.rxbuf := rfl
@[simp] theorem State.drain_rxCount (n : Nat) : (s.drain n).rxCount = s.rxCount := rfl
@[simp] theorem State.drain_rxLen (n : Nat) : (s.drain n).rxLen = s.rxLen := rfl
@[simp] theorem State.drain_crc (n : Nat) : (s.drain n).crc = s.crc := rfl
@[simp] theorem State.drain_rxDeadline (n : Nat) : (s.drain n).rxDeadline = s.rxDeadline := rfl
@[simp] theorem State.drain_breakUntil (n : Nat) : (s.drain n).breakUntil = s.breakUntil := rfl
@[simp] theorem State.drain_curCmd (n : Nat) : (s.drain n).curCmd = s.curCmd := rfl
@[simp] theorem State.drain_pendErr (n : Nat) : (s.drain n).pendErr = s.pendErr := rfl
@[simp] theorem State.drain_res (n : Nat) : (s.drain n).res = s.res := rfl
@[simp] theorem State.drain_curOp (n : Nat) : (s.drain n).curOp = s.curOp := rfl
@[simp] theorem State.drain_curPayload (n : Nat) : (s.drain n).curPayload = s.curPayload := rfl
@[simp] theorem State.drain_message (n : Nat) : (s.drain n).message = s.message := rfl
@[simp] theorem State.drain_params (n : Nat) : (s.drain n).params = s.params := rfl
@[simp] theorem State.drain_port (n : Nat) : (s.drain n).port = s.port := rfl
@[simp] theorem State.drain_outQueue (n : Nat) : (s.drain n).outQueue = s.outQueue.drop n := rfl
@[simp] theorem State.drain_inQueue (n : Nat) : (s.drain n).inQueue = s.inQueue := rfl
@[simp] theorem State.drain_line (n : Nat) : (s.drain n).line = s.line ++ s.outQueue.take n := rfl
@[simp] theorem State.drain_breakOn (n : Nat) : (s.drain n).breakOn = s.breakOn := rfl
@[simp] theorem State.drain_now (n : Nat) : (s.drain n).now = s.now := rfl
@[simp] theorem State.drain_openOk (n : Nat) : (s.drain n).openOk = s.openOk := rfl
@[simp] theorem State.drain_writeFaults (n : Nat) : (s.drain n).writeFaults = s.writeFaults := rfl
@[simp] theorem State.drain_script (n : Nat) : (s.drain n).script = s.script := rfl
@[simp] theorem State.drain_ret (n : Nat) : (s.drain n).ret = s.ret := rfl
@[simp] theorem State.drain_ties (n : Nat) : (s.drain n).ties = s.ties := rfl
@[simp] theorem State.drain_ended (n : Nat) : (s.drain n).ended = s.ended := rfl

/-! `advance` -/

@[simp] theorem State.advance_addr (ms : Nat) : (s.advance ms).addr = s.addr := rfl
@[simp] theorem State.advance_baud (ms : Nat) : (s.advance ms).baud = s.baud := rfl
@[simp] theorem State.advance_opened (ms : Nat) : (s.advance ms).opened = s.opened := rfl
@[simp] theorem State.advance_lastReq (ms : Nat) : (s.advance ms).lastReq = s.lastReq := rfl
@[simp] theorem State.advance_phase (ms : Nat) : (s.advance ms).phase = s.phase := rfl
@[simp] theorem State.advance_txbuf (ms : Nat) : (s.advance ms).txbuf = s.txbuf := rfl
@[simp] theorem State.advance_txLen (ms : Nat) : (s.advance ms).txLen = s.txLen := rfl
@[simp] theorem State.advance_rxbuf (ms : Nat) : (s.advance ms).rxbuf = s.rxbuf := rfl
@[simp] theorem State.advance_rxCount (ms : Nat) : (s.advance ms).rxCount = s.rxCount := rfl
@[simp] theorem State.advance_rxLen (ms : Nat) : (s.advance ms).rxLen = s.rxLen := rfl
@[simp] theorem State.advance_crc (ms : Nat) : (s.advance ms).crc = s.crc := rfl
@[simp] theorem State.advance_rxDeadline (ms : Nat) : (s.advance ms).rxDeadline = s.rxDeadline := rfl
@[simp] theorem State.advance_breakUntil (ms : Nat) : (s.advance ms).breakUntil = s.breakUntil := rfl
@[simp] theorem State.advance_curCmd (ms : Nat) : (s.advance ms).curCmd = s.curCmd := rfl
@[simp] theorem State.advance_pendErr (ms : Nat) : (s.advance ms).pendErr = s.pendErr := rfl
@[simp] theorem State.advance_res (ms : Nat) : (s.advance ms).res = s.res := rfl
@[simp] theorem State.advance_curOp (ms : Nat) : (s.advance ms).curOp = s.curOp := rfl
@[simp] theorem State.advance_curPayload (ms : Nat) : (s.advance ms).curPayload = s.curPayload := rfl
@[simp] theorem State.advance_message (ms : Nat) : (s.advance ms).message = s.message := rfl
@[simp] theorem State.advance_params (ms : Nat) : (s.advance ms).params = s.params := rfl
@[simp] theorem State.advance_port (ms : Nat) : (s.advance ms).port = s.port := rfl
@[simp] theorem State.advance_outQueue (ms : Nat) : (s.advance ms).outQueue = s.outQueue := rfl
@[simp] theorem State.advance_inQueue (ms : Nat) : (s.advance ms).inQueue = s.inQueue := rfl
@[simp] theorem State.advance_line (ms : Nat) : (s.advance ms).line = s.line := rfl
@[simp] theorem State.advance_breakOn (ms : Nat) : (s.advance ms).breakOn = s.breakOn := rfl
@[simp] theorem State.advance_now (ms : Nat) : (s.advance ms).now = s.now + ms := rfl
@[simp] theorem State.advance_openOk (ms : Nat) : (s.advance ms).openOk = s.openOk := rfl
@[simp] theorem State.advance_writeFaults (ms : Nat) : (s.advance ms).writeFaults = s.writeFaults := rfl
@[simp] theorem State.advance_script (ms : Nat) : (s.advance ms).script = s.script := rfl
@[simp] theorem State.advance_ret (ms : Nat) : (s.advance ms).ret = s.ret := rfl
@[simp] theorem State.advance_ties (ms : Nat) : (s.advance ms).ties = s.ties := rfl
@[simp] theorem State.advance_ended (ms : Nat) : (s.advance ms).ended = s.ended := rfl

/-! `stamp` -/

@[simp] theorem State.stamp_addr : s.stamp.addr = s.addr := rfl
@[simp] theorem State.stamp_baud : s.stamp.baud = s.baud := rfl
@[simp] theorem State.stamp_opened : s.stamp.opened = s.opened := rfl
@[simp] theorem State.stamp_lastReq : s.stamp.lastReq = s.now := rfl
@[simp] theorem State.stamp_phase : s.stamp.phase = s.phase := rfl
@[simp] theorem State.stamp_txbuf : s.stamp.txbuf = s.txbuf := rfl
@[simp] theorem State.stamp_txLen : s.stamp.txLen = s.txLen := rfl
@[simp] theorem State.stamp_rxbuf : s.stamp.rxbuf = s.rxbuf := rfl
@[simp] theorem State.stamp_rxCount : s.stamp.rxCount = s.rxCount := rfl
@[simp] theorem State.stamp_rxLen : s.stamp.rxLen = s.rxLen := rfl
@[simp] theorem State.stamp_crc : s.stamp.crc = s.crc := rfl
@[simp] theorem State.stamp_rxDeadline : s.stamp.rxDeadline = s.rxDeadline := rfl
@[simp] theorem State.stamp_breakUntil : s.stamp.breakUntil = s.breakUntil := rfl
@[simp] theorem State.stamp_curCmd : s.stamp.curCmd = s.curCmd := rfl
@[simp] theorem State.stamp_pendErr : s.stamp.pendErr = s.pendErr := rfl
@[simp] theorem State.stamp_res : s.stamp.res = s.res := rfl
@[simp] theorem State.stamp_curOp : s.stamp.curOp = s.curOp := rfl
@[simp] theorem State.stamp_curPayload : s.stamp.curPayload = s.curPayload := rfl
@[simp] theorem State.stamp_message : s.stamp.message = s.message := rfl
@[simp] theorem State.stamp_params : s.stamp.params = s.params := rfl
@[simp] theorem State.stamp_port : s.stamp.port = s.port := rfl
@[simp] theorem State.stamp_outQueue : s.stamp.outQueue = s.outQueue := rfl
@[simp] theorem State.stamp_inQueue : s.stamp.inQueue = s.inQueue := rfl
@[simp] theorem State.stamp_line : s.stamp.line = s.line := rfl
@[simp] theorem State.stamp_breakOn : s.stamp.breakOn = s.breakOn := rfl
@[simp] theorem State.stamp_now : s.stamp.now = s.now := rfl
@[simp] theorem State.stamp_openOk : s.stamp.openOk = s.openOk := rfl
@[simp] theorem State.stamp_writeFaults : s.stamp.writeFaults = s.writeFaults := rfl
@[simp] theorem State.stamp_script : s.stamp.script = s.script := rfl
@[simp] theorem State.stamp_ret : s.stamp.ret = s.ret := rfl
@[simp] theorem State.stamp_ties : s.stamp.ties = s.ties := rfl
@[simp] theorem State.stamp_ended : s.stamp.ended = s.ended := rfl

/-! `finish` -/

@[simp] theorem State.finish_addr (r : Result) : (s.finish r).addr = s.addr := rfl
@[simp] theorem State.finish_baud (r : Result) : (s.finish r).baud = s.baud := rfl
@[simp] theorem State.finish_opened (r : Result) : (s.finish r).opened = s.opened := rfl
@[simp] theorem State.finish_lastReq (r : Result) : (s.finish r).lastReq = s.lastReq := rfl
@[simp] theorem State.finish_phase (r : Result) : (s.finish r).phase = .idle := rfl
@[simp] theorem State.finish_txbuf (r : Result) : (s.finish r).txbuf = s.txbuf := rfl
@[simp] theorem State.finish_txLen (r : Result) : (s.finish r).txLen = s.txLen := rfl
@[simp] theorem State.finish_rxbuf (r : Result) : (s.finish r).rxbuf = s.rxbuf := rfl
@[simp] theorem State.finish_rxCount (r : Result) : (s.finish r).rxCount = s.idleRxCount := rfl
@[simp] theorem State.finish_rxLen (r : Result) : (s.finish r).rxLen = s.rxLen := rfl
@[simp] theorem State.finish_crc (r : Result) : (s.finish r).crc = s.crc := rfl
@[simp] theorem State.finish_rxDeadline (r : Result) : (s.finish r).rxDeadline = s.rxDeadline := rfl
@[simp] theorem State.finish_breakUntil (r : Result) : (s.finish r).breakUntil = s.breakUntil := rfl
@[simp] theorem State.finish_curCmd (r : Result) : (s.finish r).curCmd = s.curCmd := rfl
@[simp] theorem State.finish_pendErr (r : Result) : (s.finish r).pendErr = s.pendErr := rfl
@[simp] theorem State.finish_res (r : Result) : (s.finish r).res = some r := rfl
@[simp] theorem State.finish_curOp (r : Result) : (s.finish r).curOp = s.curOp := rfl
@[simp] theorem State.finish_curPayload (r : Result) : (s.finish r).curPayload = s.curPayload := rfl
@[simp] theorem State.finish_message (r : Result) : (s.finish r).message = s.message := rfl
@[simp] theorem State.finish_params (r : Result) : (s.finish r).params = s.params := rfl
@[simp] theorem State.finish_port (r : Result) : (s.finish r).port = s.port := rfl
@[simp] theorem State.finish_outQueue (r : Result) : (s.finish r).outQueue = s.outQueue := rfl
@[simp] theorem State.finish_inQueue (r : Result) : (s.finish r).inQueue = s.inQueue := rfl
@[simp] theorem State.finish_line (r : Result) : (s.finish r).line = s.line := rfl
@[simp] theorem State.finish_breakOn (r : Result) : (s.finish r).breakOn = s.breakOn := rfl
@[simp] theorem State.finish_now (r : Result) : (s.finish r).now = s.now := rfl
@[simp] theorem State.finish_openOk (r : Result) : (s.finish r).openOk = s.openOk := rfl
@[simp] theorem State.finish_writeFaults (r : Result) : (s.finish r).writeFaults = s.writeFaults := rfl
@[simp] theorem State.finish_script (r : Result) : (s.finish r).script = s.script := rfl
@[simp] theorem State.finish_ret (r : Result) : (s.finish r).ret = s.ret := rfl
@[simp] theorem State.finish_ties (r : Result) : (s.finish r).ties = s.ties := rfl
@[simp] theorem State.finish_ended (r : Result) : (s.finish r).ended = s.ended + 1 := rfl

/-! `answered` -/

@[simp] theorem State.answered_addr (p : Phase) : (s.answered p).addr = s.addr := rfl
@[simp] theorem State.answered_baud (p : Phase) : (s.answered p).baud = s.baud := rfl
@[simp] theorem State.answered_opened (p : Phase) : (s.answered p).opened = s.opened := rfl
@[simp] theorem State.answered_lastReq (p : Phase) : (s.answered p).lastReq = s.lastReq := rfl
@[simp] theorem State.answered_phase (p : Phase) : (s.answered p).phase = p := rfl
@[simp] theorem State.answered_txbuf (p : Phase) : (s.answered p).txbuf = s.txbuf := rfl
@[simp] theorem State.answered_txLen (p : Phase) : (s.answered p).txLen = s.txLen := rfl
@[simp] theorem State.answered_rxbuf (p : Phase) : (s.answered p).rxbuf = s.rxbuf := rfl
@[simp] theorem State.answered_rxCount (p : Phase) : (s.answered p).rxCount = 0 := rfl
@[simp] theorem State.answered_rxLen (p : Phase) : (s.answered p).rxLen = s.rxLen := rfl
@[simp] theorem State.answered_crc (p : Phase) : (s.answered p).crc = s.crc := rfl
@[simp] theorem State.answered_rxDeadline (p : Phase) : (s.answered p).rxDeadline = s.rxDeadline := rfl
@[simp] theorem State.answered_breakUntil (p : Phase) : (s.answered p).breakUntil = s.breakUntil := rfl
@[simp] theorem State.answered_curCmd (p : Phase) : (s.answered p).curCmd = s.curCmd := rfl
@[simp] theorem State.answered_pendErr (p : Phase) : (s.answered p).pendErr = s.pendErr := rfl
@[simp] theorem State.answered_res (p : Phase) : (s.answered p).res = s.res := rfl
@[simp] theorem State.answered_curOp (p : Phase) : (s.answered p).curOp = s.curOp := rfl
@[simp] theorem State.answered_curPayload (p : Phase) : (s.answered p).curPayload = s.curPayload := rfl
@[simp] theorem State.answered_message (p : Phase) : (s.answered p).message = s.message := rfl
@[simp] theorem State.answered_params (p : Phase) : (s.answered p).params = s.params := rfl
@[simp] theorem State.answered_port (p : Phase) : (s.answered p).port = s.port := rfl
@[simp] theorem State.answered_outQueue (p : Phase) : (s.answered p).outQueue = s.outQueue := rfl
@[simp] theorem State.answered_inQueue (p : Phase) : (s.answered p).inQueue = s.inQueue := rfl
@[simp] theorem State.answered_line (p : Phase) : (s.answered p).line = s.line := rfl
@[simp] theorem State.answered_breakOn (p : Phase) : (s.answered p).breakOn = s.breakOn := rfl
@[simp] theorem State.answered_now (p : Phase) : (s.answered p).now = s.now := rfl
@[simp] theorem State.answered_openOk (p : Phase) : (s.answered p).openOk = s.openOk := rfl
@[simp] theorem State.answered_writeFaults (p : Phase) : (s.answered p).writeFaults = s.writeFaults := rfl
@[simp] theorem State.answered_script (p : Phase) : (s.answered p).script = s.script := rfl
@[simp] theorem State.answered_ret (p : Phase) : (s.answered p).ret = s.ret := rfl
@[simp] theorem State.answered_ties (p : Phase) : (s.answered p).ties = s.ties := rfl
@[simp] theorem State.answered_ended (p : Phase) : (s.answered p).ended = s.ended := rfl

/-! `syncSeen` -/

@[simp] theorem State.syncSeen_addr : s.syncSeen.addr = s.addr := rfl
@[simp] theorem State.syncSeen_baud : s.syncSeen.baud = s.baud := rfl
@[simp] theorem State.syncSeen_opened : s.syncSeen.opened = s.opened := rfl
@[simp] theorem State.syncSeen_lastReq : s.syncSeen.lastReq = s.lastReq := rfl
@[simp] theorem State.syncSeen_phase : s.syncSeen.phase = .receivingFrame := rfl
@[simp] theorem State.syncSeen_txbuf : s.syncSeen.txbuf = s.txbuf := rfl
@[simp] theorem State.syncSeen_txLen : s.syncSeen.txLen = s.txLen := rfl
@[simp] theorem State.syncSeen_rxbuf : s.syncSeen.rxbuf = s.rxbuf.write 0 Config.sync := rfl
@[simp] theorem State.syncSeen_rxCount : s.syncSeen.rxCount = 1 := rfl
@[simp] theorem State.syncSeen_rxLen : s.syncSeen.rxLen = s.rxLen := rfl
@[simp] theorem State.syncSeen_crc : s.syncSeen.crc = crcUpdate Config.crcInit Config.sync := rfl
@[simp] theorem State.syncSeen_rxDeadline : s.syncSeen.rxDeadline = s.rxDeadline := rfl
@[simp] theorem State.syncSeen_breakUntil : s.syncSeen.breakUntil = s.breakUntil := rfl
@[simp] theorem State.syncSeen_curCmd : s.syncSeen.curCmd = s.curCmd := rfl
@[simp] theorem State.syncSeen_pendErr : s.syncSeen.pendErr = s.pendErr := rfl
@[simp] theorem State.syncSeen_res : s.syncSeen.res = s.res := rfl
@[simp] theorem State.syncSeen_curOp : s.syncSeen.curOp = s.curOp := rfl
@[simp] theorem State.syncSeen_curPayload : s.syncSeen.curPayload = s.curPayload := rfl
@[simp] theorem State.syncSeen_message : s.syncSeen.message = s.message := rfl
@[simp] theorem State.syncSeen_params : s.syncSeen.params = s.params := rfl
@[simp] theorem State.syncSeen_port : s.syncSeen.port = s.port := rfl
@[simp] theorem State.syncSeen_outQueue : s.syncSeen.outQueue = s.outQueue := rfl
@[simp] theorem State.syncSeen_inQueue : s.syncSeen.inQueue = s.inQueue := rfl
@[simp] theorem State.syncSeen_line : s.syncSeen.line = s.line := rfl
@[simp] theorem State.syncSeen_breakOn : s.syncSeen.breakOn = s.breakOn := rfl
@[simp] theorem State.syncSeen_now : s.syncSeen.now = s.now := rfl
@[simp] theorem State.syncSeen_openOk : s.syncSeen.openOk = s.openOk := rfl
@[simp] theorem State.syncSeen_writeFaults : s.syncSeen.writeFaults = s.writeFaults := rfl
@[simp] theorem State.syncSeen_script : s.syncSeen.script = s.script := rfl
@[simp] theorem State.syncSeen_ret : s.syncSeen.ret = s.ret := rfl
@[simp] theorem State.syncSeen_ties : s.syncSeen.ties = s.ties := rfl
@[simp] theorem State.syncSeen_ended : s.syncSeen.ended = s.ended := rfl

end Sys2Proof.Machine
end

