-- ==== Sys2Proof/Laws/Ops.lean ====
section
/-! SUPPORT. For each shared operation one lemma that says everything it can do, to be cited instead of unfolding it. -/

namespace Sys2Proof.Machine

/-! ## Frames as byte lists -/

@[simp] theorem length_sealFrame (body : List Byte) : (sealFrame body).length = body.length + 2 := by
  simp [sealFrame, crcBytes]

@[simp] theorem length_requestBody (a cmd : Byte) (p : List Byte) : (requestBody a cmd p).length = p.length + 4 := by
  simp [requestBody]

@[simp] theorem length_requestFrame (a cmd : Byte) (p : List Byte) : (requestFrame a cmd p).length = p.length + 6 := by
  simp [requestFrame]

@[simp] theorem length_responseBody (a : Byte) (d : List Byte) : (responseBody a d).length = d.length + 3 := by
  simp [responseBody]

@[simp] theorem length_responseFrame (a : Byte) (d : List Byte) : (responseFrame a d).length = d.length + 5 := by
  simp [responseFrame]

@[simp] theorem length_responseFrameCarrying (a : Byte) (d : List Byte) (c : Word16) :
    (responseFrameCarrying a d c).length = d.length + 5 := by
  simp [responseFrameCarrying]

/-- A 16-bit number is its two bytes put together, low byte first. -/
theorem le16_bytes (c : Word16) : le16 (lowByte c) (highByte c) = c := by
  apply BitVec.eq_of_getLsbD_eq
  intro i hi
  by_cases h : i < 8
  · simp [h]
    exact BitVec.lt_of_getLsbD
  · have h8 : i - 8 < 8 := by omega
    have h16 : i - 8 < 16 := by omega
    simp [h, h8, h16, hi, Nat.add_sub_cancel' (Nat.not_lt.mp h)]

/-- The two parts of a frame are the bytes before the CRC field and the number the field carries. -/
theorem protectedPart_append (body : List Byte) (x y : Byte) : protectedPart (body ++ [x, y]) = body := by
  simp [protectedPart]

theorem carriedCrc_append (body : List Byte) (x y : Byte) : carriedCrc (body ++ [x, y]) = le16 x y := by
  simp [carriedCrc, List.getD_eq_getElem?_getD]

@[simp] theorem protectedPart_sealFrame (body : List Byte) : protectedPart (sealFrame body) = body :=
  protectedPart_append ..

@[simp] theorem carriedCrc_sealFrame (body : List Byte) : carriedCrc (sealFrame body) = crc16 body := by
  rw [sealFrame, crcBytes, carriedCrc_append, le16_bytes]

@[simp] theorem protectedPart_carrying (a : Byte) (d : List Byte) (c : Word16) :
    protectedPart (responseFrameCarrying a d c) = responseBody a d := protectedPart_append ..

@[simp] theorem carriedCrc_carrying (a : Byte) (d : List Byte) (c : Word16) :
    carriedCrc (responseFrameCarrying a d c) = c := by
  rw [responseFrameCarrying, carriedCrc_append, le16_bytes]

/-- The message body of a slave frame is what the slave put there. -/
@[simp] theorem messageBody_carrying (a : Byte) (d : List Byte) (c : Word16) :
    messageBody (responseFrameCarrying a d c) = d := by
  simp [messageBody, responseBody]

@[simp] theorem messageBody_responseFrame (a : Byte) (d : List Byte) : messageBody (responseFrame a d) = d := by
  simp [messageBody, responseFrame, responseBody]

/-! ## Calls -/

/-- What acceptance can answer: only a block that exists and is `Idle` accepts. -/
theorem State.whenIdle_cases (s : State) (o : Out) :
    (s.opened = false ∧ s.whenIdle o = .fault .noBlock) ∨
    (s.opened = true ∧ s.phase ≠ .idle ∧ s.whenIdle o = .fault .callWhileBusy) ∨
    (s.opened = true ∧ s.phase = .idle ∧ s.whenIdle o = o) := by
  unfold State.whenIdle
  by_cases h : s.opened = false
  · simp [h]
  · by_cases h' : s.phase = .idle <;> simp [h, h']

theorem State.whenIdle_idle {s : State} (o : Out) (ho : s.opened = true) (hp : s.phase = .idle) : s.whenIdle o = o := by
  simp [State.whenIdle, ho, hp]

theorem State.whenIdle_next {s t : State} {o : Out} (h : s.whenIdle o = .next t) :
    s.opened = true ∧ s.phase = .idle ∧ o = .next t := by
  rcases s.whenIdle_cases o with ⟨-, h'⟩ | ⟨-, -, h'⟩ | ⟨ho, hp, h'⟩
  · simp [h'] at h
  · simp [h'] at h
  · exact ⟨ho, hp, h' ▸ h⟩

/-! ## Writing -/

/-- What is left in `txbuf[0 .. tx_len]` is the frame loaded. -/
theorem State.txFrame_loadTx {s : State} (hm : s.txbuf.Pairwise fun x y => x.1 < y.1) (f : List Byte) :
    (s.loadTx f).txFrame = f := by
  simp [State.txFrame, Memory.readBytes_writeBytes hm]

/-- `T.writeAll` queues all the bytes, or fails with a prefix of them queued. -/
theorem State.writeAll_cases (s : State) (bs : List Byte) :
    (s.writeSucceeds = true ∧
      s.writeAll bs = (true, { s with outQueue := s.outQueue ++ bs, writeFaults := s.writeFaults.tail })) ∨
    (s.writeSucceeds = false ∧ ∃ k,
      s.writeAll bs = (false, { s with outQueue := s.outQueue ++ bs.take k, writeFaults := s.writeFaults.tail })) := by
  unfold State.writeAll State.writeSucceeds
  match h : s.writeFaults with
  | [] => simp
  | none :: rest => simp
  | some k :: rest => exact .inr ⟨rfl, k, rfl⟩

theorem State.writeAll_ok {s : State} (h : s.writeSucceeds = true) (bs : List Byte) :
    s.writeAll bs = (true, { s with outQueue := s.outQueue ++ bs, writeFaults := s.writeFaults.tail }) := by
  rcases s.writeAll_cases bs with h' | h'
  · exact h'.2
  · simp [h] at h'

/-- Sending a frame loads it into `txbuf` and queues all of it, or fails with a part of it queued. -/
theorem State.sendFrame_cases (s : State) (f : List Byte) :
    (s.writeSucceeds = true ∧ s.sendFrame f =
      (true, { s.loadTx f with outQueue := s.outQueue ++ (s.loadTx f).txFrame, writeFaults := s.writeFaults.tail })) ∨
    (s.writeSucceeds = false ∧ ∃ k, s.sendFrame f =
      (false, { s.loadTx f with outQueue := s.outQueue ++ (s.loadTx f).txFrame.take k
                                writeFaults := s.writeFaults.tail })) :=
  (s.loadTx f).writeAll_cases (s.loadTx f).txFrame

/-- A NACK is queued and drains, or the error is surfaced at once. -/
theorem State.sendNack_cases (s : State) (e : Err) :
    (s.writeSucceeds = true ∧ s.sendNack e =
      { s.loadTx s.nackFrame with
        outQueue := s.outQueue ++ (s.loadTx s.nackFrame).txFrame
        writeFaults := s.writeFaults.tail
        phase := .nackSent
        rxCount := 0 }) ∨
    (s.writeSucceeds = false ∧ ∃ k, s.sendNack e =
      State.raise
        { s.loadTx s.nackFrame with
          outQueue := s.outQueue ++ (s.loadTx s.nackFrame).txFrame.take k
          writeFaults := s.writeFaults.tail } e) := by
  unfold State.sendNack
  rcases s.sendFrame_cases s.nackFrame with ⟨h, h'⟩ | ⟨h, k, h'⟩
  · left; simp only [h', h, true_and]; rfl
  · right; exact ⟨h, k, by simp only [h']⟩

/-- An ACK is queued and drains, the message held, or `WriteFailure` is returned at once. -/
theorem State.sendAck_cases (s : State) (m : List Byte) :
    (s.writeSucceeds = true ∧ s.sendAck m =
      { s.loadTx s.ackFrame with
        outQueue := s.outQueue ++ (s.loadTx s.ackFrame).txFrame
        writeFaults := s.writeFaults.tail
        phase := .ackSent
        rxCount := 0
        message := m }) ∨
    (s.writeSucceeds = false ∧ ∃ k, s.sendAck m =
      State.raise
        { s.loadTx s.ackFrame with
          outQueue := s.outQueue ++ (s.loadTx s.ackFrame).txFrame.take k
          writeFaults := s.writeFaults.tail } .writeFailure) := by
  unfold State.sendAck
  rcases s.sendFrame_cases s.ackFrame with ⟨h, h'⟩ | ⟨h, k, h'⟩
  · left; simp only [h', h, true_and]; rfl
  · right; exact ⟨h, k, by simp only [h']⟩

/-- `fail_rx` returns the error at once or sends a NACK with the error pending. -/
theorem State.failRx_cases (s : State) (e : Err) :
    (e = .readTimeout ∧ s.params.nackOnTimeout = false ∧ s.failRx e = s.raise e) ∨
    (¬ (e = .readTimeout ∧ s.params.nackOnTimeout = false) ∧ s.failRx e = (s.setPendErr e).sendNack e) := by
  unfold State.failRx
  split_ifs with h
  · exact .inl ⟨h.1, h.2, rfl⟩
  · exact .inr ⟨h, rfl⟩

/-! ## Reading -/

/-- `T.readByte` answers a byte, a timeout, or nothing yet. -/
theorem State.readByte_cases (s : State) :
    (∃ b rest, s.inQueue = b :: rest ∧ s.inTime ∧ s.readByte = (.byte b, s.takeInput rest)) ∨
    (∃ b rest, s.inQueue = b :: rest ∧ s.rxDeadline ≤ s.now ∧ Config.tieTakesByte s.ties = true ∧
      s.readByte = (.byte b, State.takeInput { s with ties := s.ties + 1 } rest)) ∨
    (∃ b rest, s.inQueue = b :: rest ∧ s.rxDeadline ≤ s.now ∧ Config.tieTakesByte s.ties = false ∧
      s.readByte = (.timeout, { s with ties := s.ties + 1 })) ∨
    (s.inQueue = [] ∧ s.rxDeadline ≤ s.now ∧ s.readByte = (.timeout, s)) ∨
    (s.inQueue = [] ∧ s.inTime ∧ s.readByte = (.notYet, s)) := by
  unfold State.readByte State.inTime
  by_cases hd : s.rxDeadline ≤ s.now
  · have hn : ¬ s.now < s.rxDeadline := by omega
    match h : s.inQueue with
    | [] => simp [hd, hn]
    | b :: rest => cases ht : Config.tieTakesByte s.ties <;> simp [hd, hn]
  · have hn : s.now < s.rxDeadline := by omega
    match h : s.inQueue with
    | [] => simp [hd, hn]
    | b :: rest => simp [hd, hn]

theorem State.readByte_inTime {s : State} {b : Byte} {rest : List Byte} (h : s.inQueue = b :: rest) (ht : s.inTime) :
    s.readByte = (.byte b, s.takeInput rest) := by
  have : ¬ s.rxDeadline ≤ s.now := by unfold State.inTime at ht; omega
  simp [State.readByte, h, this]

/-! ## Steps that wait -/

/-- In `Delay`: before the floor the state stays; from the floor on the request is issued. -/
theorem observeFloor_cases (s : State) :
    (s.floorMet ∧ observeFloor s = issueRequest s) ∨ (¬ s.floorMet ∧ observeFloor s = .next s) := by
  unfold observeFloor
  split_ifs with h
  · exact .inl ⟨h, rfl⟩
  · exact .inr ⟨h, rfl⟩

/-- In the states that wait for the drain: with bytes pending the state stays. -/
theorem observeDrain_cases (s : State) :
    (s.outQueue = [] ∧ observeDrain s = drained s) ∨ (s.outQueue ≠ [] ∧ observeDrain s = .next s) := by
  unfold observeDrain State.pending
  by_cases h : s.outQueue = [] <;> simp [h]

/-- In `Breaking`: before `break_until` the state stays; then the break is released. -/
theorem observeBreak_cases (s : State) :
    (s.breakUntil ≤ s.now ∧ observeBreak s = .next (s.clearBreak.returnOk .unit)) ∨
    (s.now < s.breakUntil ∧ observeBreak s = .next s) := by
  unfold observeBreak
  split_ifs with h
  · exact .inl ⟨h, rfl⟩
  · exact .inr ⟨by omega, rfl⟩

/-- The request frame of the exchange in flight (42_link_protocol.md R163). -/
abbrev State.request (s : State) : List Byte := requestFrame s.addr s.curCmd s.curPayload

/-- What the issue of a request can do: over-long payloads are an error after the stamp, 250 bytes have no meaning, any other
frame is queued, or the write fails. -/
theorem issueRequest_cases (s : State) :
    (250 < s.curPayload.length ∧
      issueRequest s = .next (s.stamp.raise (.payloadTooLarge s.curPayload.length))) ∨
    (s.curPayload.length = 250 ∧ issueRequest s = .refused .payload250) ∨
    (s.curPayload.length < 250 ∧ s.writeSucceeds = true ∧
      issueRequest s = .next
        { s.requestLoaded s.request with
          outQueue := s.outQueue ++ (s.loadTx s.request).txFrame
          writeFaults := s.writeFaults.tail
          phase := .sending }) ∨
    (s.curPayload.length < 250 ∧ s.writeSucceeds = false ∧ ∃ k,
      issueRequest s = .next (State.raise
        { s.requestLoaded s.request with
          outQueue := s.outQueue ++ (s.loadTx s.request).txFrame.take k
          writeFaults := s.writeFaults.tail } .writeFailure)) := by
  by_cases h1 : 250 < s.curPayload.length
  · simp [issueRequest, encodeRequest, h1]
  · by_cases h2 : s.curPayload.length = 250
    · simp [issueRequest, encodeRequest, h2]
    · have h3 : s.curPayload.length < 250 := by omega
      have he : encodeRequest s.addr s.curCmd s.curPayload = .frame s.request := by
        simp [encodeRequest, h1, h2]
      simp only [h1, h2, h3, false_and, true_and, false_or, issueRequest, he]
      rcases (s.requestLoaded s.request).writeAll_cases (s.loadTx s.request).txFrame with ⟨h, h'⟩ | ⟨h, k, h'⟩
      · refine .inl ⟨h, ?_⟩
        rw [show (s.requestLoaded s.request).txFrame = (s.loadTx s.request).txFrame from rfl, h']
        rfl
      · refine .inr ⟨h, k, ?_⟩
        rw [show (s.requestLoaded s.request).txFrame = (s.loadTx s.request).txFrame from rfl, h']
        rfl

end Sys2Proof.Machine
end

