-- ==== Sys2Proof/Laws/PerInstr.lean ====
section
/-! SUPPORT. The per-instruction family `RoundTrip`: decoding the words of a well-formed instruction gives it back. One lemma
per constructor. `getBillOptions` is left out of the statement: its frame is `poll`'s, bit for bit
(44_device_controller.md R242). A row without an encoding has no words and nothing to say. -/

set_option Elab.async false

namespace Sys2Proof.Laws

open Sys2Proof.Machine

/-- `decode` of `encode i` is `i`, for a block of any address and any `INC_CMD_CODE`. -/
def RoundTrip.Statement (i : Instr) : Prop :=
  ∀ (addr inc : Byte) (f : Format) (bytes : List Byte),
    i ≠ .getBillOptions → WellFormed inc i → encode addr i = some (f, bytes) → decode inc f bytes = .ok i

/-- A request frame byte by byte. -/
theorem requestFrame_bytes (a cmd : Byte) (p : List Byte) :
    requestFrame a cmd p =
      Config.sync :: a :: BitVec.ofNat 8 (p.length + 6) :: cmd :: (p ++ crcBytes (requestBody a cmd p)) := by
  simp [requestFrame, sealFrame, requestBody]

/-- A slave frame byte by byte. -/
theorem responseFrameCarrying_bytes (a : Byte) (d : List Byte) (c : Word16) :
    responseFrameCarrying a d c =
      Config.sync :: a :: BitVec.ofNat 8 (d.length + 5) :: (d ++ [lowByte c, highByte c]) := by
  simp [responseFrameCarrying, responseBody]

theorem responseFrame_eq (a : Byte) (d : List Byte) :
    responseFrame a d = responseFrameCarrying a d (crc16 (responseBody a d)) := rfl

/-- The six bytes of an operation's request decode to the operation of its code. -/
theorem decodeHostOp_request (a cmd : Byte) : decodeHostOp (requestFrame a cmd []) = hostOpOf cmd := by
  simp [requestFrame_bytes, crcBytes, decodeHostOp]

/-- The six bytes of a frame of the master decode to the row of its code. -/
theorem decodeM6_request (a cmd : Byte) : decodeM6 (requestFrame a cmd []) = masterFrameOf a cmd := by
  have h : crc16 [Config.sync, a, 6#8, cmd] = crc16 (requestBody a cmd []) := by simp [requestBody]
  simp only [requestFrame_bytes, crcBytes, decodeM6, List.length_nil, List.nil_append, le16_bytes]
  simp [h]

/-- A whole slave frame decodes by its CRC and its body. -/
theorem decodeSlave_frame (inc a : Byte) (d : List Byte) (c : Word16) (h1 : 1 ≤ d.length) (h2 : d.length ≤ 250) :
    decodeSlave inc (responseFrameCarrying a d c) =
      if crc16 (responseBody a d) ≠ c then .ok (.rspBadCrc a d c) else .ok (slaveFrameOf inc a d) := by
  have hn : (BitVec.ofNat 8 (d.length + 5)).toNat = d.length + 5 := by
    rw [BitVec.toNat_ofNat]; omega
  obtain ⟨x, d', rfl⟩ : ∃ x d', d = x :: d' := by
    cases d with
    | nil => simp at h1
    | cons x d' => exact ⟨x, d', rfl⟩
  have hb := protectedPart_carrying a (x :: d') c
  have hc := carriedCrc_carrying a (x :: d') c
  have hm := messageBody_carrying a (x :: d') c
  rw [responseFrameCarrying_bytes] at hb hc hm ⊢
  simp only [decodeSlave, hn, hb, hc, hm, ne_eq, not_true_eq_false, if_false]
  have hl : ((x :: d') ++ [lowByte c, highByte c]).length = (x :: d').length + 2 := by simp
  rw [if_neg (by simp only [Config.minLen]; omega), if_neg (by rw [hl]; omega), if_neg (by rw [hl]; omega)]

/-- A status row's body decodes to the row of its code. -/
theorem decodeStatusBody_row {inc c : Byte} {more : List Byte} {i : Instr} (hw : statusProblem more = none)
    (h : statusRowOf c more = i) : Sys2Proof.decode inc .status (c :: more) = .ok i := by
  unfold statusProblem at hw
  have hl : ¬ 249 < more.length := fun h => by simp [h] at hw
  simp [Sys2Proof.decode, decodeStatusBody, hl, h]

theorem RoundTrip.poll : RoundTrip.Statement .poll := by
  intro addr inc f bytes hg hw he
  obtain ⟨rfl, rfl⟩ := by simpa [Sys2Proof.encode] using he
  simp only [Sys2Proof.decode]
  rw [decodeHostOp_request]
  decide

theorem RoundTrip.getBillOptions : RoundTrip.Statement .getBillOptions := by
  intro _ _ _ _ hg
  exact absurd rfl hg

theorem RoundTrip.getBillTable : RoundTrip.Statement .getBillTable := by
  intro addr inc f bytes hg hw he
  obtain ⟨rfl, rfl⟩ := by simpa [Sys2Proof.encode] using he
  simp only [Sys2Proof.decode]
  rw [decodeHostOp_request]
  decide

theorem RoundTrip.info : RoundTrip.Statement .info := by
  intro addr inc f bytes hg hw he
  obtain ⟨rfl, rfl⟩ := by simpa [Sys2Proof.encode] using he
  simp only [Sys2Proof.decode]
  rw [decodeHostOp_request]
  decide

theorem RoundTrip.cassetteStatus : RoundTrip.Statement .cassetteStatus := by
  intro addr inc f bytes hg hw he
  obtain ⟨rfl, rfl⟩ := by simpa [Sys2Proof.encode] using he
  simp only [Sys2Proof.decode]
  rw [decodeHostOp_request]
  decide

theorem RoundTrip.stackBill : RoundTrip.Statement .stackBill := by
  intro addr inc f bytes hg hw he
  obtain ⟨rfl, rfl⟩ := by simpa [Sys2Proof.encode] using he
  simp only [Sys2Proof.decode]
  rw [decodeHostOp_request]
  decide

theorem RoundTrip.returnBill : RoundTrip.Statement .returnBill := by
  intro addr inc f bytes hg hw he
  obtain ⟨rfl, rfl⟩ := by simpa [Sys2Proof.encode] using he
  simp only [Sys2Proof.decode]
  rw [decodeHostOp_request]
  decide

theorem RoundTrip.resetAll : RoundTrip.Statement .resetAll := by
  intro addr inc f bytes hg hw he
  simp [Sys2Proof.encode] at he

theorem RoundTrip.construct (path : String) (addr : Byte) (baud : Baud) : RoundTrip.Statement (.construct path addr baud) := by
  intro addr inc f bytes hg hw he
  simp [Sys2Proof.encode] at he

theorem RoundTrip.exchange (cmd : Byte) (payload : List Byte) : RoundTrip.Statement (.exchange cmd payload) := by
  intro addr inc f bytes hg hw he
  obtain ⟨rfl, rfl⟩ := by simpa [Sys2Proof.encode] using he
  have hp := hw
  simp only [WellFormed, problem, ite_eq_right_iff, reduceCtorEq, imp_false, Nat.not_lt] at hp
  have hn : (BitVec.ofNat 8 (payload.length + 6)).toNat = payload.length + 6 := by
    rw [BitVec.toNat_ofNat]; omega
  have hl : (payload ++ crcBytes (requestBody addr cmd payload)).length = payload.length + 2 := by simp [crcBytes]
  rw [requestFrame_bytes]
  simp only [Sys2Proof.decode, decodeReqVar, hn, ne_eq, not_true_eq_false, if_false]
  rw [if_neg (by simp only [Config.minLen]; omega), if_neg (by rw [hl]; omega), if_neg (by rw [hl]; omega), hl]
  simp

theorem RoundTrip.reqGetStatus (a : Byte) : RoundTrip.Statement (.reqGetStatus a) := by
  intro addr inc f bytes hg hw he
  obtain ⟨rfl, rfl⟩ := by simpa [Sys2Proof.encode] using he
  exact (decodeM6_request ..).trans rfl

theorem RoundTrip.reqPoll (a : Byte) : RoundTrip.Statement (.reqPoll a) := by
  intro addr inc f bytes hg hw he
  obtain ⟨rfl, rfl⟩ := by simpa [Sys2Proof.encode] using he
  exact (decodeM6_request ..).trans rfl

theorem RoundTrip.reqStack (a : Byte) : RoundTrip.Statement (.reqStack a) := by
  intro addr inc f bytes hg hw he
  obtain ⟨rfl, rfl⟩ := by simpa [Sys2Proof.encode] using he
  exact (decodeM6_request ..).trans rfl

theorem RoundTrip.reqReturn (a : Byte) : RoundTrip.Statement (.reqReturn a) := by
  intro addr inc f bytes hg hw he
  obtain ⟨rfl, rfl⟩ := by simpa [Sys2Proof.encode] using he
  exact (decodeM6_request ..).trans rfl

theorem RoundTrip.reqExtIdent (a : Byte) : RoundTrip.Statement (.reqExtIdent a) := by
  intro addr inc f bytes hg hw he
  obtain ⟨rfl, rfl⟩ := by simpa [Sys2Proof.encode] using he
  exact (decodeM6_request ..).trans rfl

theorem RoundTrip.reqGetBillTable (a : Byte) : RoundTrip.Statement (.reqGetBillTable a) := by
  intro addr inc f bytes hg hw he
  obtain ⟨rfl, rfl⟩ := by simpa [Sys2Proof.encode] using he
  exact (decodeM6_request ..).trans rfl

theorem RoundTrip.reqRecCassetteStatus (a : Byte) : RoundTrip.Statement (.reqRecCassetteStatus a) := by
  intro addr inc f bytes hg hw he
  obtain ⟨rfl, rfl⟩ := by simpa [Sys2Proof.encode] using he
  exact (decodeM6_request ..).trans rfl

theorem RoundTrip.masterAck (a : Byte) : RoundTrip.Statement (.masterAck a) := by
  intro addr inc f bytes hg hw he
  obtain ⟨rfl, rfl⟩ := by simpa [Sys2Proof.encode] using he
  exact (decodeM6_request ..).trans rfl

theorem RoundTrip.masterNack (a : Byte) : RoundTrip.Statement (.masterNack a) := by
  intro addr inc f bytes hg hw he
  obtain ⟨rfl, rfl⟩ := by simpa [Sys2Proof.encode] using he
  exact (decodeM6_request ..).trans rfl

theorem RoundTrip.rspAck (a : Byte) : RoundTrip.Statement (.rspAck a) := by
  intro addr inc f bytes hg hw he
  obtain ⟨rfl, rfl⟩ := by simpa [Sys2Proof.encode] using he
  simp only [Sys2Proof.decode, responseFrame_eq]
  rw [decodeSlave_frame _ _ _ _ (by simp) (by simp)]
  simp [slaveFrameOf, Config.ackCode]

theorem RoundTrip.rspNack (a : Byte) : RoundTrip.Statement (.rspNack a) := by
  intro addr inc f bytes hg hw he
  obtain ⟨rfl, rfl⟩ := by simpa [Sys2Proof.encode] using he
  simp only [Sys2Proof.decode, responseFrame_eq]
  rw [decodeSlave_frame _ _ _ _ (by simp) (by simp)]
  simp [slaveFrameOf, Config.ackCode, Config.nackCode]

theorem RoundTrip.rspIncrementCommand (a i : Byte) : RoundTrip.Statement (.rspIncrementCommand a i) := by
  intro addr inc f bytes hg hw he
  obtain ⟨rfl, rfl⟩ := by simpa [Sys2Proof.encode] using he
  have h := hw
  simp only [WellFormed, problem, ite_eq_right_iff, reduceCtorEq, imp_false, not_or, not_not] at h
  simp only [Sys2Proof.decode, responseFrame_eq]
  rw [decodeSlave_frame _ _ _ _ (by simp) (by simp)]
  obtain ⟨rfl, h1, h2⟩ := h
  simp [slaveFrameOf, h1, h2]

theorem RoundTrip.rspMessage1 (a d : Byte) : RoundTrip.Statement (.rspMessage1 a d) := by
  intro addr inc f bytes hg hw he
  obtain ⟨rfl, rfl⟩ := by simpa [Sys2Proof.encode] using he
  have h := hw
  simp only [WellFormed, problem, ite_eq_right_iff, reduceCtorEq, imp_false, not_or] at h
  simp only [Sys2Proof.decode, responseFrame_eq]
  rw [decodeSlave_frame _ _ _ _ (by simp) (by simp)]
  simp [slaveFrameOf, h]

theorem RoundTrip.rspMessage (a : Byte) (body : List Byte) : RoundTrip.Statement (.rspMessage a body) := by
  intro addr inc f bytes hg hw he
  obtain ⟨rfl, rfl⟩ := by simpa [Sys2Proof.encode] using he
  have h := hw
  simp only [WellFormed, problem, ite_eq_right_iff, reduceCtorEq, imp_false, not_or, Nat.not_lt] at h
  simp only [Sys2Proof.decode, responseFrame_eq]
  rw [decodeSlave_frame _ _ _ _ (by omega) (by omega)]
  match body, h with
  | [], h => simp at h
  | [_], h => simp at h
  | _ :: _ :: _, _ => simp [slaveFrameOf]

theorem RoundTrip.rspBadAddress (x : Byte) : RoundTrip.Statement (.rspBadAddress x) := by
  intro addr inc f bytes hg hw he
  obtain ⟨rfl, rfl⟩ := by simpa [Sys2Proof.encode] using he
  simp [Sys2Proof.decode, decodeSlave]

theorem RoundTrip.rspTooShort (a n : Byte) : RoundTrip.Statement (.rspTooShort a n) := by
  intro addr inc f bytes hg hw he
  obtain ⟨rfl, rfl⟩ := by simpa [Sys2Proof.encode] using he
  have h := hw
  simp only [WellFormed, problem, ite_eq_right_iff, reduceCtorEq, imp_false, Nat.not_le] at h
  simp only [Sys2Proof.decode, decodeSlave, if_pos h, ne_eq, not_true_eq_false, if_false, if_true]

theorem RoundTrip.rspBadCrc (a : Byte) (body : List Byte) (carried : Word16) : RoundTrip.Statement (.rspBadCrc a body carried) := by
  intro addr inc f bytes hg hw he
  obtain ⟨rfl, rfl⟩ := by simpa [Sys2Proof.encode] using he
  have h := hw
  simp only [WellFormed, problem] at h
  split_ifs at h with h1 h2
  simp only [not_or, Nat.not_lt] at h1
  simp only [Sys2Proof.decode]
  rw [decodeSlave_frame _ _ _ _ h1.1 h1.2, if_pos (Ne.symm h2)]

theorem RoundTrip.statusPowerUp (more : List Byte) : RoundTrip.Statement (.statusPowerUp more) := by
  intro addr inc f bytes hg hw he
  obtain ⟨rfl, rfl⟩ := by simpa [Sys2Proof.encode] using he
  exact decodeStatusBody_row hw (by simp [statusRowOf])

theorem RoundTrip.statusInitialize (more : List Byte) : RoundTrip.Statement (.statusInitialize more) := by
  intro addr inc f bytes hg hw he
  obtain ⟨rfl, rfl⟩ := by simpa [Sys2Proof.encode] using he
  exact decodeStatusBody_row hw (by simp [statusRowOf])

theorem RoundTrip.statusIdling (more : List Byte) : RoundTrip.Statement (.statusIdling more) := by
  intro addr inc f bytes hg hw he
  obtain ⟨rfl, rfl⟩ := by simpa [Sys2Proof.encode] using he
  exact decodeStatusBody_row hw (by simp [statusRowOf])

theorem RoundTrip.statusAccepting (more : List Byte) : RoundTrip.Statement (.statusAccepting more) := by
  intro addr inc f bytes hg hw he
  obtain ⟨rfl, rfl⟩ := by simpa [Sys2Proof.encode] using he
  exact decodeStatusBody_row hw (by simp [statusRowOf])

theorem RoundTrip.statusStacking (more : List Byte) : RoundTrip.Statement (.statusStacking more) := by
  intro addr inc f bytes hg hw he
  obtain ⟨rfl, rfl⟩ := by simpa [Sys2Proof.encode] using he
  exact decodeStatusBody_row hw (by simp [statusRowOf])

theorem RoundTrip.statusReturning (more : List Byte) : RoundTrip.Statement (.statusReturning more) := by
  intro addr inc f bytes hg hw he
  obtain ⟨rfl, rfl⟩ := by simpa [Sys2Proof.encode] using he
  exact decodeStatusBody_row hw (by simp [statusRowOf])

theorem RoundTrip.statusDisabled (more : List Byte) : RoundTrip.Statement (.statusDisabled more) := by
  intro addr inc f bytes hg hw he
  obtain ⟨rfl, rfl⟩ := by simpa [Sys2Proof.encode] using he
  exact decodeStatusBody_row hw (by simp [statusRowOf])

theorem RoundTrip.statusHolding (more : List Byte) : RoundTrip.Statement (.statusHolding more) := by
  intro addr inc f bytes hg hw he
  obtain ⟨rfl, rfl⟩ := by simpa [Sys2Proof.encode] using he
  exact decodeStatusBody_row hw (by simp [statusRowOf])

theorem RoundTrip.statusBusy (more : List Byte) : RoundTrip.Statement (.statusBusy more) := by
  intro addr inc f bytes hg hw he
  obtain ⟨rfl, rfl⟩ := by simpa [Sys2Proof.encode] using he
  exact decodeStatusBody_row hw (by simp [statusRowOf])

theorem RoundTrip.statusRejecting (more : List Byte) : RoundTrip.Statement (.statusRejecting more) := by
  intro addr inc f bytes hg hw he
  obtain ⟨rfl, rfl⟩ := by simpa [Sys2Proof.encode] using he
  exact decodeStatusBody_row hw (by simp [statusRowOf])

theorem RoundTrip.statusDispensing (more : List Byte) : RoundTrip.Statement (.statusDispensing more) := by
  intro addr inc f bytes hg hw he
  obtain ⟨rfl, rfl⟩ := by simpa [Sys2Proof.encode] using he
  exact decodeStatusBody_row hw (by simp [statusRowOf])

theorem RoundTrip.statusUploading (more : List Byte) : RoundTrip.Statement (.statusUploading more) := by
  intro addr inc f bytes hg hw he
  obtain ⟨rfl, rfl⟩ := by simpa [Sys2Proof.encode] using he
  exact decodeStatusBody_row hw (by simp [statusRowOf])

theorem RoundTrip.statusSettingTypeCassette (more : List Byte) : RoundTrip.Statement (.statusSettingTypeCassette more) := by
  intro addr inc f bytes hg hw he
  obtain ⟨rfl, rfl⟩ := by simpa [Sys2Proof.encode] using he
  exact decodeStatusBody_row hw (by simp [statusRowOf])

theorem RoundTrip.statusDispensed (more : List Byte) : RoundTrip.Statement (.statusDispensed more) := by
  intro addr inc f bytes hg hw he
  obtain ⟨rfl, rfl⟩ := by simpa [Sys2Proof.encode] using he
  exact decodeStatusBody_row hw (by simp [statusRowOf])

theorem RoundTrip.statusUnloaded (more : List Byte) : RoundTrip.Statement (.statusUnloaded more) := by
  intro addr inc f bytes hg hw he
  obtain ⟨rfl, rfl⟩ := by simpa [Sys2Proof.encode] using he
  exact decodeStatusBody_row hw (by simp [statusRowOf])

theorem RoundTrip.statusInvalidBillNumber (more : List Byte) : RoundTrip.Statement (.statusInvalidBillNumber more) := by
  intro addr inc f bytes hg hw he
  obtain ⟨rfl, rfl⟩ := by simpa [Sys2Proof.encode] using he
  exact decodeStatusBody_row hw (by simp [statusRowOf])

theorem RoundTrip.statusSetCassetteType (more : List Byte) : RoundTrip.Statement (.statusSetCassetteType more) := by
  intro addr inc f bytes hg hw he
  obtain ⟨rfl, rfl⟩ := by simpa [Sys2Proof.encode] using he
  exact decodeStatusBody_row hw (by simp [statusRowOf])

theorem RoundTrip.statusInvalidCommand (more : List Byte) : RoundTrip.Statement (.statusInvalidCommand more) := by
  intro addr inc f bytes hg hw he
  obtain ⟨rfl, rfl⟩ := by simpa [Sys2Proof.encode] using he
  exact decodeStatusBody_row hw (by simp [statusRowOf])

theorem RoundTrip.statusDropCassetteFull (more : List Byte) : RoundTrip.Statement (.statusDropCassetteFull more) := by
  intro addr inc f bytes hg hw he
  obtain ⟨rfl, rfl⟩ := by simpa [Sys2Proof.encode] using he
  exact decodeStatusBody_row hw (by simp [statusRowOf])

theorem RoundTrip.statusDropCassetteRemoved (more : List Byte) : RoundTrip.Statement (.statusDropCassetteRemoved more) := by
  intro addr inc f bytes hg hw he
  obtain ⟨rfl, rfl⟩ := by simpa [Sys2Proof.encode] using he
  exact decodeStatusBody_row hw (by simp [statusRowOf])

theorem RoundTrip.statusJamInAcceptor (more : List Byte) : RoundTrip.Statement (.statusJamInAcceptor more) := by
  intro addr inc f bytes hg hw he
  obtain ⟨rfl, rfl⟩ := by simpa [Sys2Proof.encode] using he
  exact decodeStatusBody_row hw (by simp [statusRowOf])

theorem RoundTrip.statusJamInStacker (more : List Byte) : RoundTrip.Statement (.statusJamInStacker more) := by
  intro addr inc f bytes hg hw he
  obtain ⟨rfl, rfl⟩ := by simpa [Sys2Proof.encode] using he
  exact decodeStatusBody_row hw (by simp [statusRowOf])

theorem RoundTrip.statusCheated (more : List Byte) : RoundTrip.Statement (.statusCheated more) := by
  intro addr inc f bytes hg hw he
  obtain ⟨rfl, rfl⟩ := by simpa [Sys2Proof.encode] using he
  exact decodeStatusBody_row hw (by simp [statusRowOf])

theorem RoundTrip.statusEscrow (more : List Byte) : RoundTrip.Statement (.statusEscrow more) := by
  intro addr inc f bytes hg hw he
  obtain ⟨rfl, rfl⟩ := by simpa [Sys2Proof.encode] using he
  exact decodeStatusBody_row hw (by simp [statusRowOf])

theorem RoundTrip.statusPacked (more : List Byte) : RoundTrip.Statement (.statusPacked more) := by
  intro addr inc f bytes hg hw he
  obtain ⟨rfl, rfl⟩ := by simpa [Sys2Proof.encode] using he
  exact decodeStatusBody_row hw (by simp [statusRowOf])

theorem RoundTrip.statusReturned (more : List Byte) : RoundTrip.Statement (.statusReturned more) := by
  intro addr inc f bytes hg hw he
  obtain ⟨rfl, rfl⟩ := by simpa [Sys2Proof.encode] using he
  exact decodeStatusBody_row hw (by simp [statusRowOf])

theorem RoundTrip.statusOther (c : Byte) (more : List Byte) : RoundTrip.Statement (.statusOther c more) := by
  intro addr inc f bytes hg hw he
  obtain ⟨rfl, rfl⟩ := by simpa [Sys2Proof.encode] using he
  have h := hw
  simp only [WellFormed, problem] at h
  have hc : c ∉ namedStatusCodes := fun hc => by simp [hc] at h
  rw [if_neg hc] at h
  have hl : ¬ 249 < more.length := fun hl => by simp [statusProblem, hl] at h
  simp only [namedStatusCodes, List.mem_cons, List.not_mem_nil, or_false, not_or] at hc
  simp only [Sys2Proof.decode, decodeStatusBody, if_neg hl, statusRowOf, hc, if_false]

theorem RoundTrip.crc16 (bytes : List Byte) : RoundTrip.Statement (.crc16 bytes) := by
  intro addr inc f bytes hg hw he
  simp [Sys2Proof.encode] at he

theorem RoundTrip.crcUpdate (c : Word16) (b : Byte) : RoundTrip.Statement (.crcUpdate c b) := by
  intro addr inc f bytes hg hw he
  simp [Sys2Proof.encode] at he

theorem RoundTrip.encode (address command : Byte) (payload : List Byte) : RoundTrip.Statement (.encode address command payload) := by
  intro addr inc f bytes hg hw he
  simp [Sys2Proof.encode] at he

theorem RoundTrip.decodeResponse (bytes : List Byte) (expectedAddress : Byte) : RoundTrip.Statement (.decodeResponse bytes expectedAddress) := by
  intro addr inc f bytes hg hw he
  simp [Sys2Proof.encode] at he

theorem RoundTrip.classify (bytes : List Byte) : RoundTrip.Statement (.classify bytes) := by
  intro addr inc f bytes hg hw he
  simp [Sys2Proof.encode] at he

theorem RoundTrip.encodeResponseFrame (address : Byte) (data : List Byte) : RoundTrip.Statement (.encodeResponseFrame address data) := by
  intro addr inc f bytes hg hw he
  simp [Sys2Proof.encode] at he

theorem RoundTrip.delayBeforeRequest : RoundTrip.Statement .delayBeforeRequest := by
  intro addr inc f bytes hg hw he
  simp [Sys2Proof.encode] at he

theorem RoundTrip.waitForTransmitComplete : RoundTrip.Statement .waitForTransmitComplete := by
  intro addr inc f bytes hg hw he
  simp [Sys2Proof.encode] at he

theorem RoundTrip.resetLink : RoundTrip.Statement .resetLink := by
  intro addr inc f bytes hg hw he
  simp [Sys2Proof.encode] at he

theorem RoundTrip.decodeStatus (r : Response) : RoundTrip.Statement (.decodeStatus r) := by
  intro addr inc f bytes hg hw he
  simp [Sys2Proof.encode] at he

theorem RoundTrip.decodeBillOptions (r : Response) : RoundTrip.Statement (.decodeBillOptions r) := by
  intro addr inc f bytes hg hw he
  simp [Sys2Proof.encode] at he

theorem RoundTrip.unpack24 (b0 b1 b2 : Byte) : RoundTrip.Statement (.unpack24 b0 b1 b2) := by
  intro addr inc f bytes hg hw he
  simp [Sys2Proof.encode] at he

theorem RoundTrip.decodeCassetteStatus (r : Response) : RoundTrip.Statement (.decodeCassetteStatus r) := by
  intro addr inc f bytes hg hw he
  simp [Sys2Proof.encode] at he

theorem RoundTrip.decodeBillTable (r : Response) : RoundTrip.Statement (.decodeBillTable r) := by
  intro addr inc f bytes hg hw he
  simp [Sys2Proof.encode] at he

theorem RoundTrip.denom (base e : Byte) : RoundTrip.Statement (.denom base e) := by
  intro addr inc f bytes hg hw he
  simp [Sys2Proof.encode] at he

theorem RoundTrip.decodeInfo (r : Response) : RoundTrip.Statement (.decodeInfo r) := by
  intro addr inc f bytes hg hw he
  simp [Sys2Proof.encode] at he

theorem RoundTrip.expectAck (cmd : Byte) (r : Response) : RoundTrip.Statement (.expectAck cmd r) := by
  intro addr inc f bytes hg hw he
  simp [Sys2Proof.encode] at he

end Sys2Proof.Laws
end

