-- ==== Sys2Proof/Laws/Receive.lean ====
section
/-! SUPPORT. What the steps of the receive phase, of the drain and of the block as a whole can do: one lemma each, to be
cited instead of unfolding them. -/

namespace Sys2Proof.Machine

/-! ## The CRC register -/

@[simp] theorem crcFrom_nil (c : Word16) : crcFrom c [] = c := rfl

@[simp] theorem crcFrom_cons (c : Word16) (b : Byte) (s : List Byte) :
    crcFrom c (b :: s) = crcFrom (crcUpdate c b) s := by
  simp [crcFrom]

/-! ## Validation -/

/-- What follows a whole frame: a wrong CRC fails, a message is acknowledged, a bare response ends the exchange. -/
theorem finishFrame_cases (s : State) :
    (crc16 (protectedPart s.rxFrame) ≠ carriedCrc s.rxFrame ∧
      finishFrame s = s.failRx (.integrityError (crc16 (protectedPart s.rxFrame)) (carriedCrc s.rxFrame))) ∨
    (crc16 (protectedPart s.rxFrame) = carriedCrc s.rxFrame ∧
      ∃ m, classifyFrame s.params.incCmdCode s.rxFrame = .message m ∧ finishFrame s = s.sendAck m) ∨
    (crc16 (protectedPart s.rxFrame) = carriedCrc s.rxFrame ∧
      (∀ m, classifyFrame s.params.incCmdCode s.rxFrame ≠ .message m) ∧
      finishFrame s = s.complete (classifyFrame s.params.incCmdCode s.rxFrame)) := by
  unfold finishFrame
  by_cases h : crc16 (protectedPart s.rxFrame) = carriedCrc s.rxFrame
  · cases hc : classifyFrame s.params.incCmdCode s.rxFrame <;> simp [h, hc]
  · simp [h]

/-! ## One byte of the receive phase -/

/-- What a byte does while the block hunts for `SYNC`. -/
theorem takeByte_waitingEcho {s : State} (h : s.phase = .waitingEcho) (b : Byte) :
    takeByte b s = .next (if b = Config.sync then s.syncSeen else s) := by
  simp only [takeByte, h]
  split_ifs <;> rfl

/-- What a byte does in `ReceivingFrame`: the second is the address, the third the declared length, the others fill the frame. -/
theorem takeByte_receivingFrame {s : State} (h : s.phase = .receivingFrame) (b : Byte) :
    (s.rxCount = 1 ∧ b = s.addr ∧ takeByte b s = .next ((s.storeRx b).runCrc b)) ∨
    (s.rxCount = 1 ∧ b ≠ s.addr ∧ takeByte b s = .next (((s.storeRx b).runCrc b).failRx (.addressMismatch b))) ∨
    (s.rxCount = 2 ∧ Config.minLen ≤ b.toNat ∧ takeByte b s = .next { (s.storeRx b).runCrc b with rxLen := b }) ∨
    (s.rxCount = 2 ∧ b.toNat < Config.minLen ∧
      takeByte b s = .next (State.failRx { (s.storeRx b).runCrc b with rxLen := b } (.frameTooShort b.toNat))) ∨
    (3 ≤ s.rxCount ∧ s.rxCount + 1 < s.rxLen.toNat ∧ takeByte b s = .next (s.storeBody b)) ∨
    (3 ≤ s.rxCount ∧ s.rxCount + 1 = s.rxLen.toNat ∧ takeByte b s = .next (finishFrame (s.storeBody b))) ∨
    ((s.rxCount = 0 ∨ 3 ≤ s.rxCount ∧ s.rxLen.toNat ≤ s.rxCount) ∧ takeByte b s = .fault .noTransition) := by
  have hc : (s.storeBody b).rxCount = s.rxCount + 1 := by
    unfold State.storeBody; split_ifs <;> simp
  have hl : (s.storeBody b).rxLen = s.rxLen := by
    unfold State.storeBody; split_ifs <;> simp
  simp only [takeByte, h]
  by_cases h1 : s.rxCount = 1
  · by_cases hb : b = s.addr <;> simp [h1, hb]
  · by_cases h2 : s.rxCount = 2
    · by_cases hb : b.toNat < Config.minLen
      · simp [h2, hb]
      · simp [h2, hb, Nat.le_of_not_lt hb]
    · by_cases h3 : 3 ≤ s.rxCount
      · have h0 : s.rxCount ≠ 0 := by omega
        by_cases h4 : s.rxCount < s.rxLen.toNat
        · by_cases h5 : s.rxCount + 1 = s.rxLen.toNat
          · have h6 : ¬ s.rxCount + 1 < s.rxLen.toNat := by omega
            simp [h1, h2, h3, h4, hc, hl, h5]
          · have h6 : s.rxCount + 1 < s.rxLen.toNat := by omega
            simp [h1, h2, h3, h4, hc, hl, h5, h6]
        · have h6 : ¬ s.rxCount + 1 < s.rxLen.toNat := by omega
          have h7 : ¬ s.rxCount + 1 = s.rxLen.toNat := by omega
          simp [h1, h2, h3, h4, h6, h7, Nat.le_of_not_lt h4]
      · have h0 : s.rxCount = 0 := by omega
        simp [h0]

/-- A body byte is stored, and run through the CRC where its offset lies below `rx_len - 2`. -/
theorem State.storeBody_cases (s : State) (b : Byte) :
    (s.rxCount < s.rxLen.toNat - 2 ∧ s.storeBody b = (s.storeRx b).runCrc b) ∨
    (s.rxLen.toNat - 2 ≤ s.rxCount ∧ s.storeBody b = s.storeRx b) := by
  unfold State.storeBody
  split_ifs with h
  · exact .inl ⟨h, rfl⟩
  · exact .inr ⟨by omega, rfl⟩

/-- What one read of the receive phase does: a byte is taken, the read times out, or the block waits. -/
theorem receiveStep_cases (s : State) :
    (∃ b rest, s.inQueue = b :: rest ∧ s.inTime ∧ receiveStep s = takeByte b (s.takeInput rest)) ∨
    (∃ b rest, s.inQueue = b :: rest ∧ s.rxDeadline ≤ s.now ∧ Config.tieTakesByte s.ties = true ∧
      receiveStep s = takeByte b (State.takeInput { s with ties := s.ties + 1 } rest)) ∨
    (∃ b rest, s.inQueue = b :: rest ∧ s.rxDeadline ≤ s.now ∧ Config.tieTakesByte s.ties = false ∧
      receiveStep s = .next (State.failRx { s with ties := s.ties + 1 } .readTimeout)) ∨
    (s.inQueue = [] ∧ s.rxDeadline ≤ s.now ∧ receiveStep s = .next (s.failRx .readTimeout)) ∨
    (s.inQueue = [] ∧ s.inTime ∧ receiveStep s = .next s) := by
  rcases s.readByte_cases with ⟨b, rest, hq, ht, h⟩ | ⟨b, rest, hq, hd, ht, h⟩ | ⟨b, rest, hq, hd, ht, h⟩ | ⟨hq, hd, h⟩ |
    ⟨hq, ht, h⟩
  · exact .inl ⟨b, rest, hq, ht, by simp only [receiveStep, h]⟩
  · exact .inr (.inl ⟨b, rest, hq, hd, ht, by simp only [receiveStep, h]⟩)
  · exact .inr (.inr (.inl ⟨b, rest, hq, hd, ht, by simp only [receiveStep, h]⟩))
  · exact .inr (.inr (.inr (.inl ⟨hq, hd, by simp only [receiveStep, h]⟩)))
  · exact .inr (.inr (.inr (.inr ⟨hq, ht, by simp only [receiveStep, h]⟩)))

/-- A byte read in time is taken at once. -/
theorem receiveStep_inTime {s : State} {b : Byte} {rest : List Byte} (h : s.inQueue = b :: rest) (ht : s.inTime) :
    receiveStep s = takeByte b (s.takeInput rest) := by
  simp only [receiveStep, State.readByte_inTime h ht]

/-! ## Many bytes -/

@[simp] theorem receiveUpTo_zero (s : State) : receiveUpTo 0 s = .next s := rfl

/-- Out of the receive phase nothing is read. -/
theorem receiveUpTo_stop {s : State} (h : ¬ s.receiving) (n : Nat) : receiveUpTo n s = .next s := by
  cases n <;> simp [receiveUpTo, h]

/-- One more read. -/
theorem receiveUpTo_next {s s' : State} (h : s.receiving) (hs : receiveStep s = .next s') (n : Nat) :
    receiveUpTo (n + 1) s = receiveUpTo n s' := by
  simp [receiveUpTo, h, hs]

/-- What holds before the reads and is kept by every read holds after them. -/
theorem receiveUpTo_induct {P : State → Prop} (hstep : ∀ s t, P s → s.receiving → receiveStep s = .next t → P t) :
    ∀ (n : Nat) (s t : State), P s → receiveUpTo n s = .next t → P t := by
  intro n
  induction n with
  | zero => intro s t hs h; simp only [receiveUpTo_zero, Host.Outcome.next.injEq] at h; exact h ▸ hs
  | succ n ih =>
    intro s t hs h
    by_cases hr : s.receiving
    · cases h' : receiveStep s with
      | next s' => exact ih s' t (hstep s s' hs hr h') (by rwa [receiveUpTo_next hr h'] at h)
      | fault f => simp [receiveUpTo, hr, h'] at h
      | refused r => simp [receiveUpTo, hr, h'] at h
    · rw [receiveUpTo_stop hr] at h
      simp only [Host.Outcome.next.injEq] at h
      exact h ▸ hs

/-- Bytes that come to a block in the receive phase are read one after another; else they wait. -/
theorem receiveBytes_cases (bytes : List Byte) (s : State) :
    (s.opened = false ∧ receiveBytes bytes s = .next s) ∨
    (s.opened = true ∧ s.receiving ∧
      receiveBytes bytes s =
        receiveUpTo (s.inQueue.length + bytes.length) { s with inQueue := s.inQueue ++ bytes }) ∨
    (s.opened = true ∧ ¬ s.receiving ∧ receiveBytes bytes s = .next { s with inQueue := s.inQueue ++ bytes }) := by
  rcases Bool.eq_false_or_eq_true s.opened with ho | ho
  · have hb : receiveBytes bytes s =
        receiveUpTo (s.inQueue.length + bytes.length) { s with inQueue := s.inQueue ++ bytes } := by
      simp only [receiveBytes, State.deliver, ho, Bool.true_eq_false, if_false, if_true, List.length_append]
    rw [hb]
    by_cases hr : s.receiving
    · exact .inr (.inl ⟨ho, hr, rfl⟩)
    · exact .inr (.inr ⟨ho, hr, receiveUpTo_stop (s := { s with inQueue := s.inQueue ++ bytes }) hr _⟩)
  · exact .inl ⟨ho, by simp [receiveBytes, ho]⟩

/-! ## The drain -/

/-- What the observed drain does in each state that waits for it. -/
theorem drained_cases (s : State) :
    (s.phase = .sending ∧
      drained s = .next { s with rxDeadline := s.now + Config.tRead, rxCount := 0, phase := .waitingEcho }) ∨
    (s.phase = .ackSent ∧ drained s = .next (s.complete (.message s.message))) ∨
    (s.phase = .nackSent ∧ ∃ e, s.pendErr = some e ∧ drained s = .next (s.raise e)) ∨
    (s.phase = .nackSent ∧ s.pendErr = none ∧ drained s = .fault .noTransition) ∨
    (s.phase ≠ .sending ∧ s.phase ≠ .ackSent ∧ s.phase ≠ .nackSent ∧ drained s = .fault .noTransition) := by
  cases hp : s.phase <;> simp [drained, hp]
  cases he : s.pendErr <;> simp

/-! ## The whole step -/

/-- A frame of the master is a request in flight being issued, or has no transition. -/
theorem sendRequest_cases (cmd a : Byte) (s : State) :
    (s.opened = false ∧ sendRequest cmd a s = .fault .noBlock) ∨
    (s.opened = true ∧ s.phase = .delay ∧ s.curCmd = cmd ∧ s.curPayload = [] ∧ a = s.addr ∧
      sendRequest cmd a s = observeFloor s) ∨
    (s.opened = true ∧ ¬ (s.phase = .delay ∧ s.curCmd = cmd ∧ s.curPayload = [] ∧ a = s.addr) ∧
      sendRequest cmd a s = .fault .noTransition) := by
  unfold sendRequest
  cases ho : s.opened
  · simp
  · by_cases h : s.phase = .delay ∧ s.curCmd = cmd ∧ s.curPayload = [] ∧ a = s.addr
    · obtain ⟨h1, h2, h3, h4⟩ := h
      simp [h1, h2, h3, h4]
    · simp [h]

/-- A status row gives the result of a poll, in `Idle`. -/
theorem decodeStatusRow_next {code : Byte} {more : List Byte} {s t : State} (h : decodeStatusRow code more s = .next t) :
    s.opened = true ∧ s.phase = .idle ∧ t = s.setRes (statusOf code more) := by
  obtain ⟨ho, hp, h'⟩ := State.whenIdle_next h
  simp only [Host.Outcome.next.injEq] at h'
  exact ⟨ho, hp, h'.symm⟩

/-- What the block's own step does, by `state`. -/
theorem blockMove_cases (s : State) :
    (s.opened = false ∧ blockMove s = .next s) ∨
    (s.opened = true ∧ s.phase = .idle ∧ blockMove s = .next s) ∨
    (s.opened = true ∧ s.phase = .delay ∧ blockMove s = observeFloor s) ∨
    (s.opened = true ∧ (s.phase = .sending ∨ s.phase = .ackSent ∨ s.phase = .nackSent) ∧
      blockMove s = observeDrain s) ∨
    (s.opened = true ∧ s.receiving ∧ blockMove s = receiveStep s) ∨
    (s.opened = true ∧ s.phase = .breaking ∧ blockMove s = observeBreak s) := by
  unfold blockMove
  cases ho : s.opened
  · simp
  · cases hp : s.phase <;>
      simp [State.receiving, exec, execDelayBeforeRequest, execWaitForTransmitComplete, execResetLink, ho, hp]

end Sys2Proof.Machine
end

