-- ==== Sys2Proof/Laws/Step.lean ====
section
/-! SUPPORT. What a step can do, said once: `exec_effect` sorts every instruction's next state by the shared operation that made it,
`step_effect` does so for a step. A property of every step is proved by cases on `Effect`. -/

set_option Elab.async false

namespace Sys2Proof.Machine

/-- Where the state after an instruction, or after the block's own step, comes from. -/
inductive Effect (s : State) : State → Prop
  /-- Nothing changes: the block waits, or there is none. -/
  | same : Effect s s
  /-- A unit function returns. -/
  | returned (v : RetVal) : Effect s (s.setRet v)
  /-- `encode` by itself: the frame stands in `txbuf`. -/
  | encoded (a c : Byte) (p : List Byte) (v : RetVal) (ho : s.opened = true) (hp : s.phase = .idle) (hl : p.length < 250) :
      Effect s (State.setRet { s.loadTx (requestFrame a c p) with crc := crc16 (requestBody a c p) } v)
  /-- `delayBeforeRequest` by itself. -/
  | stamped (ho : s.opened = true) (hp : s.phase = .idle) (hf : s.floorMet) : Effect s (s.stamp.setRet .unit)
  /-- A status row gives a result. -/
  | status (r : Result) (ho : s.opened = true) (hp : s.phase = .idle) : Effect s (s.setRes r)
  /-- An exchange is accepted. -/
  | accepted (op : Op) (cmd : Byte) (payload : List Byte) (ho : s.opened = true) (hp : s.phase = .idle) :
      Effect s { s with phase := .delay, curOp := op, curCmd := cmd, curPayload := payload, pendErr := none, res := none
                        rxCount := 0 }
  /-- A link reset is accepted. -/
  | breakBegun (ho : s.opened = true) (hp : s.phase = .idle) :
      Effect s { s.assertBreak with breakUntil := s.now + Config.tBreak, phase := .breaking, curOp := .resetAll, res := none
                                    rxCount := 0 }
  /-- The break is released. -/
  | breakEnded (ho : s.opened = true) (hp : s.phase = .breaking) (ht : s.breakUntil ≤ s.now) :
      Effect s (s.clearBreak.returnOk .unit)
  /-- The block is constructed. -/
  | constructed (path : String) (a : Byte) (b : Baud) (ho : s.opened = false) :
      Effect s { s with
        addr := a, baud := b, opened := true, lastReq := s.now, phase := .idle, rxCount := 0, pendErr := none
        res := none, outQueue := [], breakOn := false
        port := some { path := path, rate := b.rate, parity := .none, flow := .none, readTimeout := Config.tRead } }
  /-- The transport could not be opened. -/
  | notOpened (ho : s.opened = false) : Effect s (s.setRes (.err .openFailure))
  /-- A request over 250 payload bytes. -/
  | tooLarge (ho : s.opened = true) (hp : s.phase = .delay) (hf : s.floorMet) (hl : 250 < s.curPayload.length) :
      Effect s (s.stamp.raise (.payloadTooLarge s.curPayload.length))
  /-- A request is queued whole. -/
  | requestSent (ho : s.opened = true) (hp : s.phase = .delay) (hf : s.floorMet) (hl : s.curPayload.length < 250) :
      Effect s { s.requestLoaded s.request with
        outQueue := s.outQueue ++ (s.loadTx s.request).txFrame, writeFaults := s.writeFaults.tail, phase := .sending }
  /-- The write of a request fails. -/
  | requestLost (k : Nat) (ho : s.opened = true) (hp : s.phase = .delay) (hf : s.floorMet)
      (hl : s.curPayload.length < 250) :
      Effect s (State.raise { s.requestLoaded s.request with
        outQueue := s.outQueue ++ (s.loadTx s.request).txFrame.take k, writeFaults := s.writeFaults.tail } .writeFailure)
  /-- The request has drained. -/
  | requestDrained (ho : s.opened = true) (hp : s.phase = .sending) (hq : s.outQueue = []) :
      Effect s { s with rxDeadline := s.now + Config.tRead, rxCount := 0, phase := .waitingEcho }
  /-- The ACK has drained: the message is decoded and returned. -/
  | ackDrained (ho : s.opened = true) (hp : s.phase = .ackSent) (hq : s.outQueue = []) :
      Effect s (s.complete (.message s.message))
  /-- The NACK has drained: the error is returned. -/
  | nackDrained (e : Err) (ho : s.opened = true) (hp : s.phase = .nackSent) (hq : s.outQueue = [])
      (he : s.pendErr = some e) : Effect s (s.raise e)
  /-- The row of the ACK frame. -/
  | acked (m : List Byte) (ho : s.opened = true) (hm : s.messageReceived = some m) : Effect s (s.sendAck m)
  /-- The row of the NACK frame. -/
  | nacked (e : Err) (ho : s.opened = true) (hr : s.receiving) (he : s.pendErr = some e) : Effect s (s.sendNack e)
  /-- Bytes arrive and are read as far as the receive phase goes. -/
  | bytesRead (bytes : List Byte) (n : Nat) (t : State) (ho : s.opened = true) (hr : s.receiving)
      (h : receiveUpTo n { s with inQueue := s.inQueue ++ bytes } = .next t) : Effect s t
  /-- Bytes arrive and wait. -/
  | bytesQueued (bytes : List Byte) (ho : s.opened = true) : Effect s { s with inQueue := s.inQueue ++ bytes }
  /-- One read of the receive phase. -/
  | readOnce (t : State) (ho : s.opened = true) (hr : s.receiving) (h : receiveStep s = .next t) : Effect s t

theorem observeFloor_effect {s t : State} (ho : s.opened = true) (hp : s.phase = .delay)
    (h : observeFloor s = .next t) : Effect s t := by
  rcases observeFloor_cases s with ⟨hf, h'⟩ | ⟨-, h'⟩ <;> rw [h'] at h
  · rcases issueRequest_cases s with ⟨hl, h''⟩ | ⟨-, h''⟩ | ⟨hl, -, h''⟩ | ⟨hl, -, k, h''⟩ <;> rw [h''] at h <;>
      simp only [Host.Outcome.next.injEq, reduceCtorEq] at h <;> subst h
    · exact .tooLarge ho hp hf hl
    · exact .requestSent ho hp hf hl
    · exact .requestLost k ho hp hf hl
  · simp only [Host.Outcome.next.injEq] at h
    exact h ▸ .same

theorem observeDrain_effect {s t : State} (ho : s.opened = true) (h : observeDrain s = .next t) : Effect s t := by
  rcases observeDrain_cases s with ⟨hq, h'⟩ | ⟨-, h'⟩ <;> rw [h'] at h
  · rcases drained_cases s with ⟨hp, h''⟩ | ⟨hp, h''⟩ | ⟨hp, e, he, h''⟩ | ⟨-, -, h''⟩ | ⟨-, -, -, h''⟩ <;> rw [h''] at h <;>
      simp only [Host.Outcome.next.injEq, reduceCtorEq] at h <;> subst h
    · exact .requestDrained ho hp hq
    · exact .ackDrained ho hp hq
    · exact .nackDrained e ho hp hq he
  · simp only [Host.Outcome.next.injEq] at h
    exact h ▸ .same

theorem observeBreak_effect {s t : State} (ho : s.opened = true) (hp : s.phase = .breaking)
    (h : observeBreak s = .next t) : Effect s t := by
  rcases observeBreak_cases s with ⟨ht, h'⟩ | ⟨-, h'⟩ <;> rw [h'] at h <;>
    simp only [Host.Outcome.next.injEq] at h <;> subst h
  · exact .breakEnded ho hp ht
  · exact .same

theorem accept_effect {op : Op} {cmd : Byte} {p : List Byte} {s t : State} (h : accept op cmd p s = .next t) :
    Effect s t := by
  obtain ⟨ho, hp, h'⟩ := State.whenIdle_next h
  simp only [Host.Outcome.next.injEq] at h'
  exact h' ▸ .accepted op cmd p ho hp

theorem beginBreak_effect {s t : State} (h : beginBreak s = .next t) : Effect s t := by
  obtain ⟨ho, hp, h'⟩ := State.whenIdle_next h
  simp only [Host.Outcome.next.injEq] at h'
  exact h' ▸ .breakBegun ho hp

theorem sendRequest_effect {cmd a : Byte} {s t : State} (h : sendRequest cmd a s = .next t) : Effect s t := by
  rcases sendRequest_cases cmd a s with ⟨-, h'⟩ | ⟨ho, hp, -, -, -, h'⟩ | ⟨-, -, h'⟩ <;> rw [h'] at h
  · simp at h
  · exact observeFloor_effect ho hp h
  · simp at h

theorem receiveBytes_effect {bytes : List Byte} {s t : State} (h : receiveBytes bytes s = .next t) : Effect s t := by
  rcases receiveBytes_cases bytes s with ⟨-, h'⟩ | ⟨ho, hr, h'⟩ | ⟨ho, -, h'⟩ <;> rw [h'] at h
  · simp only [Host.Outcome.next.injEq] at h
    exact h ▸ .same
  · exact .bytesRead bytes _ t ho hr h
  · simp only [Host.Outcome.next.injEq] at h
    exact h ▸ .bytesQueued bytes ho

theorem decodeStatusRow_effect {code : Byte} {more : List Byte} {s t : State} (h : decodeStatusRow code more s = .next t) :
    Effect s t := by
  obtain ⟨ho, hp, rfl⟩ := decodeStatusRow_next h
  exact .status _ ho hp

theorem setRet_effect {v : RetVal} {s t : State} (h : (Host.Outcome.next (s.setRet v) : Out) = .next t) :
    Effect s t := by
  simp only [Host.Outcome.next.injEq] at h
  exact h ▸ .returned v

/-- Every instruction's next state, by the shared operation that made it. -/
theorem exec_effect {i : Instr} {s t : State} (h : exec i s = .next t) : Effect s t := by
  cases i
  case poll => exact accept_effect h
  case getBillOptions => exact accept_effect h
  case getBillTable => exact accept_effect h
  case info => exact accept_effect h
  case cassetteStatus => exact accept_effect h
  case stackBill => exact accept_effect h
  case returnBill => exact accept_effect h
  case resetAll => exact beginBreak_effect h
  case construct path a b =>
    simp only [exec, execConstruct] at h
    split_ifs at h with ho
    rw [Bool.not_eq_true] at ho
    unfold State.openPort at h
    split_ifs at h with hk <;> simp only [Host.Outcome.next.injEq] at h <;> subst h
    · exact .constructed path a b ho
    · exact .notOpened ho
  case exchange => exact accept_effect h
  case reqGetStatus => exact sendRequest_effect h
  case reqPoll => exact sendRequest_effect h
  case reqStack => exact sendRequest_effect h
  case reqReturn => exact sendRequest_effect h
  case reqExtIdent => exact sendRequest_effect h
  case reqGetBillTable => exact sendRequest_effect h
  case reqRecCassetteStatus => exact sendRequest_effect h
  case masterAck =>
    simp only [exec, execMasterAck] at h
    by_cases ho : s.opened = false
    · simp [ho] at h
    rw [if_neg ho] at h
    split at h
    · rename_i m hm
      split_ifs at h
      simp only [Host.Outcome.next.injEq] at h
      exact h ▸ .acked m (by simpa using ho) hm
    · simp at h
  case masterNack =>
    simp only [exec, execMasterNack] at h
    by_cases ho : s.opened = false
    · simp [ho] at h
    rw [if_neg ho] at h
    split at h
    · rename_i e he
      split_ifs at h with hm
      simp only [Host.Outcome.next.injEq] at h
      exact h ▸ .nacked e (by simpa using ho) hm.1 he
    · simp at h
  case rspAck => exact receiveBytes_effect h
  case rspNack => exact receiveBytes_effect h
  case rspIncrementCommand => exact receiveBytes_effect h
  case rspMessage1 => exact receiveBytes_effect h
  case rspMessage => exact receiveBytes_effect h
  case rspBadAddress => exact receiveBytes_effect h
  case rspTooShort => exact receiveBytes_effect h
  case rspBadCrc => exact receiveBytes_effect h
  case crc16 => exact setRet_effect h
  case crcUpdate => exact setRet_effect h
  case encode a c p =>
    obtain ⟨ho, hp, h'⟩ := State.whenIdle_next h
    unfold encodeRequest at h'
    split_ifs at h' with h1 h2 <;> simp only [Host.Outcome.next.injEq] at h' <;> subst h'
    · exact .returned _
    · exact .encoded a c p _ ho hp (by simp only [Config.maxPayload] at h1 h2; omega)
  case decodeResponse =>
    simp only [exec, execDecodeResponse] at h
    split at h <;> exact setRet_effect h
  case classify =>
    simp only [exec, execClassify] at h
    split_ifs at h
    exact setRet_effect h
  case encodeResponseFrame =>
    simp only [exec, execEncodeResponseFrame] at h
    split_ifs at h
    exact setRet_effect h
  case delayBeforeRequest =>
    simp only [exec, execDelayBeforeRequest] at h
    by_cases ho : s.opened = false
    · simp [ho] at h
    rw [if_neg ho] at h
    replace ho : s.opened = true := by simpa using ho
    split at h
    · exact observeFloor_effect ho ‹_› h
    · split_ifs at h with hf
      · simp only [Host.Outcome.next.injEq] at h
        exact h ▸ .stamped ho ‹_› hf
      · exact setRet_effect h
    · simp at h
  case waitForTransmitComplete =>
    simp only [exec, execWaitForTransmitComplete] at h
    by_cases ho : s.opened = false
    · simp [ho] at h
    rw [if_neg ho] at h
    replace ho : s.opened = true := by simpa using ho
    split at h
    · exact observeDrain_effect ho h
    · exact observeDrain_effect ho h
    · exact observeDrain_effect ho h
    · split_ifs at h <;> exact setRet_effect h
  case resetLink =>
    simp only [exec, execResetLink] at h
    split_ifs at h with hb
    · exact observeBreak_effect hb.1 hb.2 h
    · exact beginBreak_effect h
  case decodeStatus => exact setRet_effect h
  case decodeBillOptions => exact setRet_effect h
  case unpack24 => exact setRet_effect h
  case decodeCassetteStatus => exact setRet_effect h
  case decodeBillTable => exact setRet_effect h
  case denom => exact setRet_effect h
  case decodeInfo => exact setRet_effect h
  case expectAck => exact setRet_effect h
  all_goals exact decodeStatusRow_effect h

/-- The block's own step. -/
theorem blockMove_effect {s t : State} (h : blockMove s = .next t) : Effect s t := by
  rcases blockMove_cases s with ⟨-, h'⟩ | ⟨-, -, h'⟩ | ⟨ho, hp, h'⟩ | ⟨ho, -, h'⟩ | ⟨ho, hr, h'⟩ | ⟨ho, hp, h'⟩ <;> rw [h'] at h
  · simp only [Host.Outcome.next.injEq] at h
    exact h ▸ .same
  · simp only [Host.Outcome.next.injEq] at h
    exact h ▸ .same
  · exact observeFloor_effect ho hp h
  · exact observeDrain_effect ho h
  · exact .readOnce t ho hr h
  · exact observeBreak_effect ho hp h

/-- What a step can do: time passes, the output drains, or an `Effect` on the state with the move gone. -/
theorem step_effect {s t : State} (h : step s = .next t) :
    (∃ m rest, s.script = m :: rest ∧
      ((∃ ms, t = State.advance { s with script := rest } ms) ∨ (∃ n, t = State.drain { s with script := rest } n) ∨
        Effect { s with script := rest } t)) ∨
    (s.script = [] ∧ Effect s t) := by
  unfold step nextMove at h
  split at h
  · rename_i hs
    exact .inr ⟨hs, blockMove_effect h⟩
  · rename_i m rest hs
    refine .inl ⟨m, rest, hs, ?_⟩
    cases m with
    | present i => exact .inr (.inr (exec_effect h))
    | wire f bytes =>
      simp only [runMove, runWire] at h
      split at h
      · exact .inr (.inr (exec_effect h))
      · simp at h
    | advance ms =>
      simp only [runMove, Host.Outcome.next.injEq] at h
      exact .inl ⟨ms, h.symm⟩
    | drain n =>
      simp only [runMove, Host.Outcome.next.injEq] at h
      exact .inr (.inl ⟨n, h.symm⟩)
    | arrive bytes =>
      simp only [runMove, State.deliver] at h
      split_ifs at h with ho <;> simp only [Host.Outcome.next.injEq] at h <;> subst h
      · exact .inr (.inr (.bytesQueued bytes ho))
      · exact .inr (.inr .same)
    | observe => exact .inr (.inr (blockMove_effect h))

end Sys2Proof.Machine
end

