-- ==== Sys2Proof/Tests/Slice0.lean ====
section
/-! SUPPORT. The model's own tests: ill-formed terms refused, words of the spec decoded, one-step tests against the vectors of
95_test_vectors.md, and for every statement with hypotheses a state and operands that meet them. -/

set_option Elab.async false

namespace Sys2Proof.Tests

open Sys2Proof.Machine

/-! ## Helpers -/

/-- The next state, where there is one. -/
def after : Out → Option State
  | .next t => some t
  | .fault _ => none
  | .refused _ => none

/-- A constructed block for address 3, `Idle` (the address of 95_test_vectors.md). -/
def idle : State := { State.reset with addr := 0x03#8, now := 1000, lastReq := 850 }

/-- The block with a `poll` accepted, its floor just met. -/
def waiting : State := { idle with phase := .delay, curOp := .poll, curCmd := 0x33#8 }

/-- The block with its request being drained. -/
def sending : State := { waiting with phase := .sending, lastReq := 1000 }

/-- The block hunting for `SYNC`. -/
def hunting : State := { waiting with phase := .waitingEcho, lastReq := 1000, rxDeadline := 3000 }

/-- The block with `SYNC` stored and byte `b` waiting. -/
def synced (b : Byte) : State :=
  { hunting with phase := .receivingFrame, rxbuf := [(0, 0x02#8)], rxCount := 1, crc := 0x2312#16, inQueue := [b] }

/-- The block with `SYNC` and the address stored and byte `b` waiting. -/
def addressed (b : Byte) : State :=
  { synced b with rxbuf := [(0, 0x02#8), (1, 0x03#8)], rxCount := 2, crc := 0x012B#16 }

/-- The block with `02 03 06` stored and byte `b` waiting. -/
def sized (b : Byte) : State :=
  { synced b with rxbuf := [(0, 0x02#8), (1, 0x03#8), (2, 0x06#8)], rxCount := 3, rxLen := 0x06#8, crc := 0xFAE6#16 }

/-- The block with `02 03 06 14 67` stored and byte `b` waiting. -/
def lastByte (b : Byte) : State :=
  { sized b with
    rxbuf := [(0, 0x02#8), (1, 0x03#8), (2, 0x06#8), (3, 0x14#8), (4, 0x67#8)], rxCount := 5, crc := 0xD467#16 }

/-- The block with the whole message frame `02 03 06 14 67 D4` in `rxbuf`, its validation due. -/
def validated : State :=
  { lastByte 0#8 with
    rxbuf := [(0, 0x02#8), (1, 0x03#8), (2, 0x06#8), (3, 0x14#8), (4, 0x67#8), (5, 0xD4#8)], rxCount := 6, inQueue := [] }

/-- The block with the ACK of that message being drained. -/
def acking : State := { validated with phase := .ackSent, rxCount := 0, message := [0x14#8] }

/-- The block with a NACK being drained. -/
def nacking : State := { hunting with phase := .nackSent, pendErr := some .readTimeout }

/-- The block holding the line break until 1250. -/
def breaking : State := { idle with phase := .breaking, breakOn := true, breakUntil := 1250 }

/-- No block: before construction. -/
def unbuilt : State := { State.reset with opened := false, port := none }

/-! ## Ill-formed terms -/

theorem test_wf_refuses :
    problem 0xFF#8 (.exchange 0x33#8 (List.replicate 250 0#8)) = some .payloadTooLong ∧
    problem 0x77#8 (.rspIncrementCommand 0x03#8 0x78#8) = some .notIncrementCode ∧
    problem 0xFF#8 (.rspIncrementCommand 0x03#8 0xFF#8) = some .notIncrementCode ∧
    problem 0xFF#8 (.rspMessage1 0x03#8 0x00#8) = some .notMessageByte ∧
    problem 0x77#8 (.rspMessage1 0x03#8 0x77#8) = some .notMessageByte ∧
    problem 0xFF#8 (.rspMessage 0x03#8 [0x14#8]) = some .messageLength ∧
    problem 0xFF#8 (.rspMessage 0x03#8 (List.replicate 251 0#8)) = some .messageLength ∧
    problem 0xFF#8 (.rspTooShort 0x03#8 0x06#8) = some .lengthNotShort ∧
    problem 0xFF#8 (.rspBadCrc 0x03#8 [] 0#16) = some .badCrcLength ∧
    problem 0xFF#8 (.rspBadCrc 0x03#8 [0x14#8] 0xD467#16) = some .crcMatches ∧
    problem 0xFF#8 (.statusIdling (List.replicate 250 0#8)) = some .statusTooLong ∧
    problem 0xFF#8 (.statusOther 0x14#8 []) = some .namedStatus := by decide +kernel

theorem test_wf_accepts :
    WellFormed 0xFF#8 (.exchange 0x33#8 (List.replicate 249 0#8)) ∧ WellFormed 0x77#8 (.rspIncrementCommand 0x03#8 0x77#8) ∧
    WellFormed 0xFF#8 (.rspMessage1 0x03#8 0x14#8) ∧ WellFormed 0xFF#8 (.rspMessage 0x03#8 (List.replicate 250 0#8)) ∧
    WellFormed 0xFF#8 (.rspTooShort 0x03#8 0x05#8) ∧ WellFormed 0xFF#8 (.rspBadCrc 0x03#8 [0x15#8] 0xD467#16) ∧
    WellFormed 0xFF#8 (.statusOther 0x47#8 []) := by decide +kernel

/-! ## Decoding: words written out from the spec -/

/-- 95_test_vectors.md V10, column aa = 03: every named code as an operation. -/
theorem test_decode_hostOp :
    [[0x02#8, 0x03#8, 0x06#8, 0x33#8, 0xDA#8, 0x81#8], [0x02#8, 0x03#8, 0x06#8, 0x35#8, 0xEC#8, 0xE4#8],
     [0x02#8, 0x03#8, 0x06#8, 0x36#8, 0x77#8, 0xD6#8], [0x02#8, 0x03#8, 0x06#8, 0x3E#8, 0x3F#8, 0x5A#8],
     [0x02#8, 0x03#8, 0x06#8, 0x41#8, 0x4F#8, 0xD1#8], [0x02#8, 0x03#8, 0x06#8, 0x70#8, 0x45#8, 0xF1#8]].map
      (decode 0xFF#8 .hostOp) =
    [.ok .poll, .ok .stackBill, .ok .returnBill, .ok .info, .ok .getBillTable, .ok .cassetteStatus] := by decide

/-- V10, column aa = 80: every named code as a frame of the master. -/
theorem test_decode_m6 :
    [[0x02#8, 0x80#8, 0x06#8, 0x00#8, 0x4A#8, 0x61#8], [0x02#8, 0x80#8, 0x06#8, 0xFF#8, 0x32#8, 0x6E#8],
     [0x02#8, 0x80#8, 0x06#8, 0x31#8, 0x40#8, 0x41#8], [0x02#8, 0x80#8, 0x06#8, 0x33#8, 0x52#8, 0x62#8],
     [0x02#8, 0x80#8, 0x06#8, 0x35#8, 0x64#8, 0x07#8], [0x02#8, 0x80#8, 0x06#8, 0x36#8, 0xFF#8, 0x35#8],
     [0x02#8, 0x80#8, 0x06#8, 0x3E#8, 0xB7#8, 0xB9#8], [0x02#8, 0x80#8, 0x06#8, 0x41#8, 0xC7#8, 0x32#8],
     [0x02#8, 0x80#8, 0x06#8, 0x70#8, 0xCD#8, 0x12#8]].map (decode 0xFF#8 .m6) =
    [.ok (.masterAck 0x80#8), .ok (.masterNack 0x80#8), .ok (.reqGetStatus 0x80#8), .ok (.reqPoll 0x80#8),
     .ok (.reqStack 0x80#8), .ok (.reqReturn 0x80#8), .ok (.reqExtIdent 0x80#8), .ok (.reqGetBillTable 0x80#8),
     .ok (.reqRecCassetteStatus 0x80#8)] := by decide

/-- V11: requests with payloads, one with every field equal to `SYNC`. -/
theorem test_decode_reqVar :
    decode 0xFF#8 .reqVar [0x02#8, 0x03#8, 0x07#8, 0x34#8, 0xAA#8, 0xD2#8, 0x64#8] = .ok (.exchange 0x34#8 [0xAA#8]) ∧
    decode 0xFF#8 .reqVar [0x02#8, 0x02#8, 0x08#8, 0x02#8, 0x02#8, 0x02#8, 0x1C#8, 0x5E#8] =
      .ok (.exchange 0x02#8 [0x02#8, 0x02#8]) := by decide

/-- V20 to V23, V31, V32, V55: the classes of bytes of the slave, legal and illegal. -/
theorem test_decode_slave :
    [[0x02#8, 0x03#8, 0x06#8, 0x00#8, 0xC2#8, 0x82#8], [0x02#8, 0x03#8, 0x06#8, 0xFF#8, 0xBA#8, 0x8D#8],
     [0x02#8, 0x03#8, 0x06#8, 0x14#8, 0x67#8, 0xD4#8], [0x02#8, 0x03#8, 0x07#8, 0xFF#8, 0x01#8, 0x09#8, 0x51#8],
     [0x02#8, 0x03#8, 0x06#8, 0x15#8, 0x67#8, 0xD4#8], [0x02#8, 0x04#8], [0x02#8, 0x03#8, 0x00#8]].map
      (decode 0xFF#8 .slave) =
    [.ok (.rspAck 0x03#8), .ok (.rspNack 0x03#8), .ok (.rspMessage1 0x03#8 0x14#8),
     .ok (.rspMessage 0x03#8 [0xFF#8, 0x01#8]), .ok (.rspBadCrc 0x03#8 [0x15#8] 0xD467#16), .ok (.rspBadAddress 0x04#8),
     .ok (.rspTooShort 0x03#8 0x00#8)] := by decide

/-- The frame of data byte 0x33 (V22) where `INC_CMD_CODE` is 0x33. -/
theorem test_decode_increment :
    decode 0x33#8 .slave [0x02#8, 0x03#8, 0x06#8, 0x33#8, 0xDA#8, 0x81#8] = .ok (.rspIncrementCommand 0x03#8 0x33#8) := by
  decide

/-- 30_encoding.md R93: every named status code, and one without a name. -/
theorem test_decode_status :
    [0x10#8, 0x13#8, 0x14#8, 0x15#8, 0x17#8, 0x18#8, 0x19#8, 0x1A#8, 0x1B#8, 0x1C#8, 0x1D#8, 0x1E#8, 0x21#8, 0x25#8,
     0x26#8, 0x28#8, 0x29#8, 0x30#8, 0x41#8, 0x42#8, 0x43#8, 0x44#8, 0x45#8, 0x80#8, 0x81#8, 0x82#8, 0x7F#8].map
      (fun c => decode 0xFF#8 .status [c, 0x07#8]) =
    [Instr.statusPowerUp, .statusInitialize, .statusIdling, .statusAccepting, .statusStacking, .statusReturning,
     .statusDisabled, .statusHolding, .statusBusy, .statusRejecting, .statusDispensing, .statusUploading,
     .statusSettingTypeCassette, .statusDispensed, .statusUnloaded, .statusInvalidBillNumber, .statusSetCassetteType,
     .statusInvalidCommand, .statusDropCassetteFull, .statusDropCassetteRemoved, .statusJamInAcceptor,
     .statusJamInStacker, .statusCheated, .statusEscrow, .statusPacked, .statusReturned,
     .statusOther 0x7F#8].map (fun i => Decoded.ok (i [0x07#8])) := by decide

/-- What is no instruction is rejected by name. -/
theorem test_decode_rejects :
    decode 0xFF#8 .hostOp [] = .reject .empty ∧ decode 0xFF#8 .slave [0x03#8] = .reject .notSync ∧
    decode 0xFF#8 .m6 [0x02#8, 0x03#8, 0x06#8, 0x33#8, 0xDA#8] = .reject .truncated ∧
    decode 0xFF#8 .m6 [0x02#8, 0x03#8, 0x06#8, 0x33#8, 0xDA#8, 0x81#8, 0x00#8] = .reject .trailing ∧
    decode 0xFF#8 .m6 [0x02#8, 0x03#8, 0x07#8, 0x33#8, 0xDA#8, 0x81#8] = .reject .badLength ∧
    decode 0xFF#8 .m6 [0x02#8, 0x03#8, 0x06#8, 0x33#8, 0x81#8, 0xDA#8] = .reject .badCrc ∧
    decode 0xFF#8 .hostOp [0x02#8, 0x03#8, 0x06#8, 0x31#8, 0xC8#8, 0xA2#8] = .reject .unknownCommand ∧
    decode 0xFF#8 .status (List.replicate 251 0x14#8) = .reject .bodyTooLong := by decide +kernel

/-- spec/opcode_table.json's own match words, read as the host reads them. -/
theorem test_decode_tableWord :
    decodeTableWord 48 0x020006330000 = some .poll ∧ decodeTableWord 48 0x020306310000 = none ∧
    decodeTableWord 48 0x02030631C8A2 = some (.reqGetStatus 0x03#8) ∧
    decodeTableWord 48 0x02030614_67D4 = some (.rspMessage1 0x03#8 0x14#8) ∧
    decodeTableWord 16 0x0204 = some (.rspBadAddress 0x04#8) ∧ decodeTableWord 24 0x020305 = some (.rspTooShort 0x03#8 0x05#8) ∧
    decodeTableWord 8 0x14 = some (.statusIdling []) ∧ decodeTableWord 8 0x80 = some (.statusEscrow [0x00#8]) := by decide +kernel

/-! ## Buffers -/

theorem test_reset_buffers_wf : State.reset.rxbuf.wf ∧ State.reset.txbuf.wf := by decide

/-- Writing what an unlisted offset reads as removes the entry. -/
theorem test_memory_canonical :
    Memory.write [(0, 0x02#8), (3, 0x14#8)] 3 0x00#8 = [(0, 0x02#8)] ∧
    Memory.write [(0, 0x02#8), (3, 0x14#8)] 1 0x03#8 = [(0, 0x02#8), (1, 0x03#8), (3, 0x14#8)] := by decide

/-! ## FrameCodec -/

/-- V1, V2. -/
theorem test_crc16 :
    (after (exec (.crc16 [0x31#8, 0x32#8, 0x33#8, 0x34#8, 0x35#8, 0x36#8, 0x37#8, 0x38#8, 0x39#8]) idle)).map State.ret =
      some (some (.word 0x2189#16)) ∧
    (after (exec (.crc16 [0x55#8, 0x53#8, 0x44#8]) idle)).map State.ret = some (some (.word 0x47E1#16)) := by decide

/-- V3: `crc_update(0xFAE6, 0x33)`. -/
theorem test_crcUpdate :
    (after (exec (.crcUpdate 0xFAE6#16 0x33#8) idle)).map State.ret = some (some (.word 0x81DA#16)) := by decide

/-- V11: every field equal to `SYNC`. -/
theorem test_encode :
    (after (exec (.encode 0x02#8 0x02#8 [0x02#8, 0x02#8]) idle)).map (fun t => (t.ret, t.txLen, t.txFrame)) =
      some (some (.bytes [0x02#8, 0x02#8, 0x08#8, 0x02#8, 0x02#8, 0x02#8, 0x1C#8, 0x5E#8]), 8,
        [0x02#8, 0x02#8, 0x08#8, 0x02#8, 0x02#8, 0x02#8, 0x1C#8, 0x5E#8]) := by decide

/-- V12, S9: a payload of 251. -/
theorem test_encode_tooLarge :
    (after (exec (.encode 0x03#8 0x33#8 (List.replicate 251 0#8)) idle)).map State.ret =
      some (some (.outcome (.err (.payloadTooLarge 251)))) := by decide +kernel

/-- V30 to V33. -/
theorem test_decodeResponse :
    [[0x02#8, 0x04#8, 0x06#8, 0x14#8, 0x62#8, 0x58#8], [0x02#8, 0x04#8, 0x05#8, 0#8, 0#8, 0#8],
     [0x02#8, 0x03#8, 0x05#8, 0x14#8, 0x67#8, 0xD4#8], [0x02#8, 0x03#8, 0x06#8, 0x15#8, 0x67#8, 0xD4#8], [0x02#8, 0x04#8],
     [0x02#8, 0x03#8, 0x06#8, 0x14#8, 0x67#8], [0x02#8, 0x03#8, 0x09#8, 0x14#8, 0x67#8, 0xD4#8],
     [0x03#8, 0x03#8, 0x06#8, 0x14#8, 0xDC#8, 0xC8#8]].map
      (fun f => (after (exec (.decodeResponse f 0x03#8) idle)).map State.ret) =
    [Result.err (.addressMismatch 0x04#8), .err (.addressMismatch 0x04#8), .err (.frameTooShort 5),
     .err (.integrityError 0xC5EE#16 0xD467#16), .err (.frameTooShort 2), .err (.frameTooShort 5),
     .err (.integrityError 0x57AF#16 0xD467#16), .ok (.response (.message [0x14#8]))].map
      (fun r => some (some (.outcome r))) := by decide

/-- V20 to V23. -/
theorem test_classify :
    [[0x02#8, 0x03#8, 0x06#8, 0x00#8, 0xC2#8, 0x82#8], [0x02#8, 0x03#8, 0x06#8, 0xFF#8, 0xBA#8, 0x8D#8],
     [0x02#8, 0x03#8, 0x06#8, 0x33#8, 0xDA#8, 0x81#8], [0x02#8, 0x03#8, 0x07#8, 0x00#8, 0x00#8, 0x40#8, 0xBF#8]].map
      (fun f => (after (exec (.classify f) idle)).map State.ret) =
    [Response.ack, .nack, .message [0x33#8], .message [0x00#8, 0x00#8]].map (fun r => some (some (.response r))) := by
  decide

/-- S6, S7. -/
theorem test_encodeResponseFrame :
    (after (exec (.encodeResponseFrame 0x03#8 [0xC0#8, 0x03#8]) idle)).map State.ret =
      some (some (.bytes [0x02#8, 0x03#8, 0x07#8, 0xC0#8, 0x03#8, 0x71#8, 0x47#8])) ∧
    (after (exec (.encodeResponseFrame 0x03#8 [0x80#8]) idle)).map State.ret =
      some (some (.bytes [0x02#8, 0x03#8, 0x06#8, 0x80#8, 0xCA#8, 0x06#8])) := by decide

/-! ## ResponseDecoder -/

/-- The status table of 95_test_vectors.md 2.6, S7. -/
theorem test_decodeStatus :
    [Response.message [0x1C#8, 0x60#8], .message [0x1C#8], .message [0x80#8, 0x07#8], .message [0x80#8], .message [],
     .message [0x14#8, 0x99#8], .message [0x15#8], .ack, .nack].map
      (fun r => (after (exec (.decodeStatus r) idle)).map State.ret) =
    [Result.ok (.status (.rejecting (some 0x60#8))), .ok (.status (.rejecting none)), .ok (.status (.escrow 0x07#8)),
     .err .missingBillType, .err .emptyStatus, .ok (.status .idling), .ok (.status (.other 0x15#8)),
     .err (.unexpectedResponse 0x33#8), .err (.nackReceived 0x33#8)].map (fun r => some (some (.outcome r))) := by decide

/-- S4, and `A5 5A 0F` of 2.6. -/
theorem test_unpack24 :
    (after (exec (.unpack24 0x01#8 0#8 0#8) idle)).map State.ret =
      some (some (.bits (true :: List.replicate 23 false))) ∧
    (after (exec (.unpack24 0xA5#8 0x5A#8 0x0F#8) idle)).map State.ret =
      some (some (.bits ((List.range 24).map (· ∈ [0, 2, 5, 7, 9, 11, 12, 14, 16, 17, 18, 19])))) := by decide

/-- The bill-options vector of 2.6. -/
theorem test_decodeBillOptions :
    (after (exec (.decodeBillOptions (.message
      ([0x01#8, 0#8, 0#8, 0xFF#8, 0#8, 0x80#8, 0#8, 0x02#8, 0#8] ++ List.replicate 15 0#8))) idle)).map State.ret =
    some (some (.outcome (.ok (.billOptions
      { acceptable := (List.range 24).map (· == 0), security := (List.range 24).map (fun i => i < 8 || i == 23)
        routing := (List.range 24).map (· == 9) })))) := by decide

/-- The cassette vectors of 2.6, S6. -/
theorem test_decodeCassetteStatus :
    (after (exec (.decodeCassetteStatus (.message [0xC0#8, 0x03#8, 0x80#8, 0x0A#8, 0#8, 0#8])) idle)).map State.ret =
      some (some (.outcome (.ok (.cassettes [⟨true, true, 0x03#8⟩, ⟨true, false, 0x0A#8⟩, ⟨false, false, 0#8⟩])))) ∧
    (after (exec (.decodeCassetteStatus (.message [0xC0#8, 0x03#8, 0x80#8])) idle)).map State.ret =
      some (some (.outcome (.err (.unexpectedLength 3 none)))) := by decide

/-- The bill-table vectors of 2.6, S5. -/
theorem test_decodeBillTable :
    (after (exec (.decodeBillTable (.message
      [0x32#8, 0x55#8, 0x53#8, 0x44#8, 0x82#8, 0x01#8, 0x45#8, 0x55#8, 0x52#8, 0x02#8])) idle)).map State.ret =
    some (some (.outcome (.ok (.billTable
      [⟨⟨0x32#8, true, 2#7⟩, [0x55#8, 0x53#8, 0x44#8]⟩, ⟨⟨0x01#8, false, 2#7⟩, [0x45#8, 0x55#8, 0x52#8]⟩])))) := by
  decide

/-- S5: `denom(50, 0x82)` is 0.5. -/
theorem test_denom :
    (after (exec (.denom 0x32#8 0x82#8) idle)).map State.ret =
      some (some (.denomination ⟨0x32#8, true, 2#7⟩)) ∧ (⟨0x32#8, true, 2#7⟩ : Denomination).value = 1 / 2 := by
  refine ⟨by decide, ?_⟩
  norm_num [Denomination.value]

/-- An asset number and two text fields, one of them malformed (2.6). -/
theorem test_decodeInfo :
    (infoOf (some [⟨.assetNumber, 0, 8⟩, ⟨.partNumber, 8, 3⟩, ⟨.serialNumber, 11, 3⟩])
      ([0#8, 0#8, 0#8, 0#8, 0#8, 0x01#8, 0xE2#8, 0x40#8, 0x41#8, 0x42#8, 0x43#8, 0x41#8, 0xFF#8, 0x43#8] ++
        List.replicate 95 0x41#8)).fields =
    [(.assetNumber, .number 123456), (.partNumber, .text [0x41#8, 0x42#8, 0x43#8]),
     (.serialNumber, .text unknownText)] := by decide

/-- 110 bytes are no identification record; with no layout 109 come back undecoded. -/
theorem test_decodeInfo_length :
    (after (exec (.decodeInfo (.message (List.replicate 110 0x41#8))) idle)).map State.ret =
      some (some (.outcome (.err (.unexpectedLength 110 (some 109))))) ∧
    (after (exec (.decodeInfo (.message (List.replicate 109 0x41#8))) idle)).map State.ret =
      some (some (.outcome (.ok (.info ⟨List.replicate 109 0x41#8, []⟩)))) := by decide +kernel

/-- expectAck (2.6). -/
theorem test_expectAck :
    (after (exec (.expectAck 0x35#8 (.message [0x14#8])) idle)).map State.ret =
      some (some (.outcome (.err (.unexpectedMessage 0x35#8 [0x14#8])))) ∧
    (after (exec (.expectAck 0x35#8 .ack) idle)).map State.ret = some (some (.outcome (.ok .unit))) := by decide

/-- Two status rows: a plain one, and `Escrow` without its bill type. -/
theorem test_status_rows :
    (after (exec (.statusDropCassetteFull [0x99#8]) idle)).map State.res = some (some (.ok (.status .cassetteFull))) ∧
    (after (exec (.statusEscrow []) idle)).map State.res = some (some (.err .missingBillType)) := by decide

/-! ## Operations, the governor, the link -/

/-- V40: before the floor the request waits. -/
theorem test_poll_accepted :
    (after (exec .poll idle)).map (fun t => (t.phase, t.curCmd, t.pendErr, t.lastReq)) =
      some (.delay, 0x33#8, none, 850) ∧
    after (exec .poll hunting) = none := by decide

/-- V41: at exactly 150 ms the request of `poll` is written and stamped. -/
theorem test_request_issued :
    (after (exec (.reqPoll 0x03#8) waiting)).map (fun t => (t.phase, t.lastReq, t.outQueue)) =
      some (.sending, 1000, [0x02#8, 0x03#8, 0x06#8, 0x33#8, 0xDA#8, 0x81#8]) ∧
    (after (exec (.reqPoll 0x03#8) { waiting with now := 999 })).map State.phase = some .delay := by decide

/-- V64, V65: an over-long payload stamps and sends nothing; a failed write stamps and returns `WriteFailure`. -/
theorem test_request_fails :
    (after (exec .delayBeforeRequest { waiting with curPayload := List.replicate 251 0#8 })).map
        (fun t => (t.phase, t.lastReq, t.outQueue, t.res)) =
      some (.idle, 1000, [], some (.err (.payloadTooLarge 251))) ∧
    (after (exec .delayBeforeRequest { waiting with writeFaults := [some 1] })).map
        (fun t => (t.phase, t.lastReq, t.outQueue, t.res)) =
      some (.idle, 1000, [0x02#8], some (.err .writeFailure)) := by decide +kernel

/-- V46: the break is held until 1250 and released then. -/
theorem test_resetLink :
    (after (exec .resetAll idle)).map (fun t => (t.phase, t.breakOn, t.breakUntil, t.lastReq)) =
      some (.breaking, true, 1250, 850) ∧
    (after (exec .resetLink { breaking with now := 1249 })).map State.breakOn = some true ∧
    (after (exec .resetLink { breaking with now := 1250 })).map (fun t => (t.phase, t.breakOn, t.res)) =
      some (.idle, false, some (.ok .unit)) := by decide

/-- Construction, and its failure. -/
theorem test_construct :
    (after (exec (.construct "tty" 0x03#8 .fast) { unbuilt with now := 77 })).map
        (fun t => (t.opened, t.addr, t.baud, t.lastReq, t.phase)) = some (true, 0x03#8, .fast, 77, .idle) ∧
    (after (exec (.construct "tty" 0x03#8 .fast) { unbuilt with openOk := false })).map (fun t => (t.opened, t.res)) =
      some (false, some (.err .openFailure)) := by decide

/-- V47: the drain sets the deadline. -/
theorem test_drain :
    (after (exec .waitForTransmitComplete { sending with now := 1157 })).map (fun t => (t.phase, t.rxDeadline)) =
      some (.waitingEcho, 3157) ∧
    (after (exec .waitForTransmitComplete acking)).map (fun t => (t.phase, t.res)) =
      some (.idle, some (.ok (.status .idling))) := by decide

/-- V50, V51: a message is acknowledged, an `Ack` is not; `rx_count` is 0 in `AckSent` (10_state.md R27). -/
theorem test_responses :
    (after (exec (.rspMessage1 0x03#8 0x14#8) hunting)).map (fun t => (t.phase, t.rxCount, t.crc, t.outQueue)) =
      some (.ackSent, 0, 0xD467#16, [0x02#8, 0x03#8, 0x06#8, 0x00#8, 0xC2#8, 0x82#8]) ∧
    (after (exec (.rspAck 0x03#8) hunting)).map (fun t => (t.phase, t.res, t.outQueue)) =
      some (.idle, some (.err (.unexpectedResponse 0x33#8)), []) := by decide +kernel

/-- V53, V52. -/
theorem test_responses_long :
    (after (exec (.rspMessage 0x03#8 [0x80#8, 0x07#8]) hunting)).map (fun t => (t.phase, t.rxLen, t.crc)) =
      some (.ackSent, 0x07#8, 0x4733#16) ∧
    (after (exec (.rspNack 0x03#8) { hunting with curOp := .stackBill })).map (fun t => (t.phase, t.res)) =
      some (.idle, some (.err (.nackReceived 0x35#8))) := by decide +kernel

/-- `IncrementCommand` where `INC_CMD_CODE` is 0x77. -/
theorem test_increment :
    (after (exec (.rspIncrementCommand 0x03#8 0x77#8)
      { hunting with params := { Params.default with incCmdCode := 0x77#8 } })).map State.res =
      some (some (.err (.incrementCommandReceived 0x33#8))) := by decide

/-- V55, V56, V58: the NACK and the pending error. -/
theorem test_illegal_responses :
    [Instr.rspBadAddress 0x04#8, .rspTooShort 0x03#8 0x05#8, .rspBadCrc 0x03#8 [0x15#8] 0xD467#16].map
      (fun i => (after (exec i hunting)).map (fun t => (t.phase, t.pendErr, t.outQueue))) =
    [Err.addressMismatch 0x04#8, .frameTooShort 5, .integrityError 0xC5EE#16 0xD467#16].map
      (fun e => some (Phase.nackSent, some e, [0x02#8, 0x03#8, 0x06#8, 0xFF#8, 0xBA#8, 0x8D#8])) := by decide +kernel

/-- V66, V67: an ACK and a NACK that cannot be written. -/
theorem test_master_frames :
    (after (exec (.masterAck 0x03#8) { validated with writeFaults := [some 0] })).map (fun t => (t.phase, t.res)) =
      some (.idle, some (.err .writeFailure)) ∧
    (after (exec (.masterNack 0x03#8) { hunting with pendErr := some (.frameTooShort 5), writeFaults := [some 2] })).map
        (fun t => (t.phase, t.res, t.outQueue)) =
      some (.idle, some (.err (.frameTooShort 5)), [0x02#8, 0x03#8]) := by decide +kernel

/-- V59: no byte at the deadline; with `NACK_ON_TIMEOUT` false nothing is sent. -/
theorem test_timeout :
    (after (step { hunting with now := 3000 })).map (fun t => (t.phase, t.pendErr)) =
      some (.nackSent, some .readTimeout) ∧
    (after (step { hunting with now := 3000, params := { Params.default with nackOnTimeout := false } })).map
        (fun t => (t.phase, t.res)) = some (.idle, some (.err .readTimeout)) := by decide +kernel

/-- A word placed by the host's interface is the next step's instruction. -/
theorem test_fetch :
    (after (step (State.reset.withFetchWord 48 0x020006330000))).map State.phase = some .delay := by decide

/-! ## Witnesses: for each statement with hypotheses, a state and operands that meet them all -/

theorem wit_CrcLaws :
    ([0x01#8] : List Byte).length = [0x80#8].length ∧ 1 < (sealFrame []).length ∧ 7 < 8 ∧
    0 < (sealFrame [0x02#8]).length := by decide

theorem wit_EncodeResult :
    idle.ready ∧ idle.txbuf.wf ∧ 250 < (List.replicate 251 0#8).length ∧ (List.replicate 250 0#8).length = 250 ∧
    (List.replicate 249 0#8).length ≤ 249 ∧ ([] : List Byte).length ≤ 249 := by decide +kernel

theorem wit_RequestFrameFormat :
    ([] : List Byte).length ≤ 249 ∧ (List.replicate 249 0#8).length ≤ 249 ∧ 248 < (List.replicate 249 0#8).length := by
  decide +kernel

/-- One byte list for each of the six clauses, expected address 3. -/
theorem wit_DecodeResponseResult :
    [0x02#8, 0x03#8].length < 3 ∧
    (3 ≤ [0x02#8, 0x04#8, 0x06#8].length ∧ [0x02#8, 0x04#8, 0x06#8].getD 1 0#8 ≠ 0x03#8) ∧
    (3 ≤ [0x02#8, 0x03#8, 0x05#8].length ∧ [0x02#8, 0x03#8, 0x05#8].getD 1 0#8 = 0x03#8 ∧
      ([0x02#8, 0x03#8, 0x05#8].getD 2 0#8).toNat < 6) ∧
    (6 ≤ ([0x02#8, 0x03#8, 0x06#8, 0x14#8, 0x67#8].getD 2 0#8).toNat ∧
      [0x02#8, 0x03#8, 0x06#8, 0x14#8, 0x67#8].length < 6) ∧
    crc16 [0x02#8, 0x03#8, 0x06#8, 0x15#8] ≠ le16 0x67#8 0xD4#8 ∧
    crc16 [0x02#8, 0x03#8, 0x06#8, 0x14#8] = le16 0x67#8 0xD4#8 := by decide

theorem wit_ClassifyResult :
    [0x02#8, 0x03#8, 0x06#8, 0x14#8, 0x67#8].length < 6 ∧
    ([0x02#8, 0x03#8, 0x06#8, 0x00#8, 0xC2#8, 0x82#8].length = 6 ∧
      [0x02#8, 0x03#8, 0x06#8, 0x00#8, 0xC2#8, 0x82#8].getD 3 0#8 = 0x00#8) ∧
    [0x02#8, 0x03#8, 0x06#8, 0xFF#8, 0xBA#8, 0x8D#8].getD 3 0#8 = 0xFF#8 ∧
    ({ idle with params := { Params.default with incCmdCode := 0x14#8 } } : State).params.incCmdCode =
      [0x02#8, 0x03#8, 0x06#8, 0x14#8, 0x67#8, 0xD4#8].getD 3 0#8 ∧
    idle.params.incCmdCode ≠ [0x02#8, 0x03#8, 0x06#8, 0x14#8, 0x67#8, 0xD4#8].getD 3 0#8 ∧
    6 < [0x02#8, 0x03#8, 0x07#8, 0xFF#8, 0x01#8, 0x09#8, 0x51#8].length := by decide

theorem wit_EncodeResponseFrameResult :
    (1 ≤ [0x14#8].length ∧ [0x14#8].length ≤ 250) ∧ (List.replicate 250 0#8).length ≤ 250 ∧
    ([] : List Byte).length = 0 ∧ 250 < (List.replicate 251 0#8).length := by decide +kernel

theorem wit_ResponseRoundTrip :
    (2 ≤ [0x00#8, 0x00#8].length ∧ [0x00#8, 0x00#8].length ≤ 250) ∧ (List.replicate 250 0#8).length ≤ 250 ∧
    [0xFF#8].length ≤ 250 ∧ ([] : List Byte).length ≤ 250 := by decide +kernel

theorem wit_StatusDecoding :
    0x11#8 ∉ [0x10#8, 0x13#8, 0x14#8, 0x19#8, 0x1A#8, 0x1C#8, 0x1D#8, 0x41#8, 0x42#8, 0x80#8] ∧
    0x15#8 ∉ [0x10#8, 0x13#8, 0x14#8, 0x19#8, 0x1A#8, 0x1C#8, 0x1D#8, 0x41#8, 0x42#8, 0x80#8] := by decide

theorem wit_StatusRows :
    idle.ready ∧ 0x11#8 ∉ namedStatusCodes ∧ 0x83#8 ∉ namedStatusCodes ∧ unbuilt.opened = false ∧ hunting.opened = true ∧
    hunting.phase ≠ .idle := by decide

theorem wit_BillOptionsDecoding :
    (List.replicate 23 0#8).length ≠ 24 ∧ (List.replicate 25 0#8).length ≠ 24 ∧ (List.replicate 24 0#8).length = 24 ∧
    23 < 24 := by decide

theorem wit_CassetteDecoding :
    [0xC0#8].length % 2 = 1 ∧ ([] : List Byte).length % 2 = 0 ∧ [0xC0#8, 0x03#8].length % 2 = 0 ∧
    0 < [0xC0#8, 0x03#8].length / 2 := by decide

theorem wit_BillTableDecoding :
    [0x32#8, 0x55#8, 0x53#8, 0x44#8].length % 5 ≠ 0 ∧ ([] : List Byte).length % 5 = 0 ∧
    [0x32#8, 0x55#8, 0x53#8, 0x44#8, 0x00#8].length % 5 = 0 ∧
    0 < [0x32#8, 0x55#8, 0x53#8, 0x44#8, 0x00#8].length / 5 := by decide

theorem wit_DenominationValue : (0x7F#8 : Byte).toNat < 128 ∧ 128 ≤ (0x80#8 : Byte).toNat := by decide

theorem wit_InfoDecoding :
    (List.replicate 108 0#8).length ≠ 109 ∧ (List.replicate 109 0#8).length = 109 ∧ idle.params.infoLayout = none ∧
    (let s : State := { idle with params := { Params.default with
        infoLayout := some [⟨.assetNumber, 101, 8⟩, ⟨.partNumber, 0, 3⟩] } }
     s.params.infoLayout = some [⟨.assetNumber, 101, 8⟩, ⟨.partNumber, 0, 3⟩]) ∧
    [InfoField.mk .assetNumber 101 8, ⟨.partNumber, 0, 3⟩][0]? = some ⟨.assetNumber, 101, 8⟩ ∧ 101 + 8 ≤ 109 ∧
    [InfoField.mk .assetNumber 101 8, ⟨.partNumber, 0, 3⟩][1]? = some ⟨.partNumber, 0, 3⟩ ∧
    InfoName.partNumber ≠ .assetNumber := by decide

/-- Three bytes that are the UTF-8 of a text (`é` and `A`), and a byte that is not. -/
theorem wit_InfoDecoding_text :
    isUtf8Text (([0xC3#8, 0xA9#8, 0x41#8].drop 0).take 3) ∧ ¬ isUtf8Text (([0xFF#8].drop 0).take 1) := by
  refine ⟨⟨[0xE9, 0x41], by simp [isScalar], by decide⟩, ?_⟩
  rintro ⟨text, hs, h⟩
  match text with
  | [] => simp at h
  | n :: rest =>
    have hn := hs n (by simp)
    unfold isScalar at hn
    rw [List.flatMap_cons] at h
    unfold utf8Of at h
    have hd := congrArg (fun l : List Byte => (l.head?.getD 0).toNat) h
    split_ifs at hd <;> simp at hd <;> omega

theorem wit_ErrorTable : hunting.writeSucceeds = true := by decide

theorem wit_ExchangeAccepted : idle.ready := by decide

theorem wit_OperationsOnlyInIdle :
    (∃ t, exec .poll idle = .next t) ∧ (∃ t, exec .resetAll idle = .next t) ∧
    (∃ t, exec (.construct "tty" 0x03#8 .slow) unbuilt = .next t) := ⟨⟨_, rfl⟩, ⟨_, rfl⟩, ⟨_, rfl⟩⟩

theorem wit_LinkBreak :
    idle.ready ∧ (breaking.opened = true ∧ breaking.phase = .breaking) ∧
    ({ breaking with now := 1249 } : State).now < breaking.breakUntil ∧
    breaking.breakUntil ≤ ({ breaking with now := 1250 } : State).now := by decide

theorem wit_LinkBreak_next : ∃ t, exec .resetLink breaking = .next t := ⟨_, rfl⟩

theorem wit_ConstructSuccess : unbuilt.opened = false ∧ unbuilt.openOk = true := by decide

theorem wit_ConstructFailure :
    ({ unbuilt with openOk := false } : State).opened = false ∧ ({ unbuilt with openOk := false } : State).openOk = false := by
  decide

/-- The state in which the request frame of command `c` is issued. -/
def requesting (c : Byte) : State := { waiting with curCmd := c }

theorem wit_RequestIssued :
    (waiting.opened = true ∧ waiting.phase = .delay ∧ waiting.lastReq + 150 ≤ waiting.now ∧
      waiting.curPayload.length ≤ 249 ∧ waiting.txbuf.wf ∧ waiting.writeSucceeds = true) ∧
    ({ waiting with curPayload := List.replicate 249 0#8 } : State).curPayload.length ≤ 249 := by decide +kernel

theorem wit_issuesRequest :
    issuesRequest .delayBeforeRequest waiting ∧ issuesRequest (.reqGetStatus 0x03#8) (requesting 0x31#8) ∧
    issuesRequest (.reqPoll 0x03#8) (requesting 0x33#8) ∧ issuesRequest (.reqStack 0x03#8) (requesting 0x35#8) ∧
    issuesRequest (.reqReturn 0x03#8) (requesting 0x36#8) ∧ issuesRequest (.reqExtIdent 0x03#8) (requesting 0x3E#8) ∧
    issuesRequest (.reqGetBillTable 0x03#8) (requesting 0x41#8) ∧
    issuesRequest (.reqRecCassetteStatus 0x03#8) (requesting 0x70#8) :=
  ⟨trivial, ⟨rfl, rfl, rfl⟩, ⟨rfl, rfl, rfl⟩, ⟨rfl, rfl, rfl⟩, ⟨rfl, rfl, rfl⟩, ⟨rfl, rfl, rfl⟩, ⟨rfl, rfl, rfl⟩,
    ⟨rfl, rfl, rfl⟩⟩

theorem wit_RequestNotIssued :
    ({ waiting with now := 999 } : State).now < waiting.lastReq + 150 ∧ waiting.lastReq + 150 ≤ waiting.now ∧
    250 < (List.replicate 251 0#8).length ∧ (List.replicate 250 0#8).length = 250 ∧
    ({ waiting with writeFaults := [some 0] } : State).writeFaults = some 0 :: [] ∧ waiting.txbuf.wf := by decide +kernel

theorem wit_DelayByItself :
    idle.ready ∧ idle.lastReq + 150 ≤ idle.now ∧ ({ idle with now := 999 } : State).now < idle.lastReq + 150 := by decide

theorem wit_DrainObserved :
    (sending.phase = .sending ∧ sending.opened = true ∧ sending.outQueue = []) ∧
    ({ sending with outQueue := [0x81#8] } : State).outQueue ≠ [] ∧
    (acking.phase = .ackSent ∧ acking.opened = true ∧ acking.outQueue = []) ∧
    (nacking.phase = .nackSent ∧ nacking.opened = true ∧ nacking.outQueue = [] ∧
      nacking.pendErr = some .readTimeout) ∧
    (idle.phase ≠ .sending ∧ idle.phase ≠ .ackSent ∧ idle.phase ≠ .nackSent) := by decide

theorem wit_MasterAckSent :
    validated.opened = true ∧ validated.messageReceived = some [0x14#8] ∧ validated.txbuf.wf ∧ validated.writeSucceeds = true ∧
    ({ validated with writeFaults := [some 6] } : State).writeFaults = some 6 :: [] := by decide

theorem wit_MasterNackSent :
    let s : State := { hunting with pendErr := some .readTimeout }
    s.opened = true ∧ s.receiving ∧ s.pendErr = some .readTimeout ∧ s.txbuf.wf ∧ s.writeSucceeds = true ∧
    ({ s with writeFaults := [some 0] } : State).writeFaults = some 0 :: [] := by decide

theorem wit_MasterFramesNowhereElse :
    (∃ t, exec (.reqPoll 0x03#8) { waiting with now := 999 } = .next t) ∧
    (∃ t, exec (.masterAck 0x03#8) validated = .next t) ∧
    (∃ t, exec (.masterNack 0x03#8) { hunting with pendErr := some .readTimeout } = .next t) :=
  ⟨⟨_, rfl⟩, ⟨_, rfl⟩, ⟨_, rfl⟩⟩

theorem wit_FailReceive :
    hunting.txbuf.wf ∧ hunting.writeSucceeds = true ∧ hunting.params.nackOnTimeout = true ∧
    ({ hunting with params := { Params.default with nackOnTimeout := false } } : State).params.nackOnTimeout = false ∧
    ({ hunting with writeFaults := [some 6] } : State).writeFaults = some 6 :: [] := by decide

theorem wit_HuntForSync :
    let s : State := { hunting with inQueue := [0x55#8], now := 2999 }
    let s' : State := { hunting with inQueue := [0x02#8] }
    (s.script = [] ∧ s.opened = true ∧ s.phase = .waitingEcho ∧ s.inQueue = 0x55#8 :: [] ∧ s.now < s.rxDeadline ∧
      0x55#8 ≠ 0x02#8) ∧
    (s'.script = [] ∧ s'.phase = .waitingEcho ∧ s'.inQueue = 0x02#8 :: [] ∧ s'.now < s'.rxDeadline ∧ s'.rxbuf.wf) := by
  decide

theorem wit_ReceiveAddress :
    ((synced 0x03#8).script = [] ∧ (synced 0x03#8).opened = true ∧ (synced 0x03#8).phase = .receivingFrame ∧
      (synced 0x03#8).rxCount = 1 ∧ (synced 0x03#8).rxbuf.wf ∧ (synced 0x03#8).inQueue = 0x03#8 :: [] ∧
      (synced 0x03#8).now < (synced 0x03#8).rxDeadline ∧ 0x03#8 = (synced 0x03#8).addr) ∧
    0x04#8 ≠ (synced 0x04#8).addr := by decide

theorem wit_ReceiveLength :
    ((addressed 0x06#8).script = [] ∧ (addressed 0x06#8).opened = true ∧ (addressed 0x06#8).phase = .receivingFrame ∧
      (addressed 0x06#8).rxCount = 2 ∧ (addressed 0x06#8).rxbuf.wf ∧ (addressed 0x06#8).inQueue = 0x06#8 :: [] ∧
      (addressed 0x06#8).now < (addressed 0x06#8).rxDeadline) ∧
    (0x05#8 : Byte).toNat < 6 ∧ ¬ (0x06#8 : Byte).toNat < 6 := by decide

theorem wit_ReceiveBody :
    (sized 0x14#8).script = [] ∧ (sized 0x14#8).opened = true ∧ (sized 0x14#8).phase = .receivingFrame ∧
    3 ≤ (sized 0x14#8).rxCount ∧ (sized 0x14#8).rxCount + 1 < (sized 0x14#8).rxLen.toNat ∧ (sized 0x14#8).rxbuf.wf ∧
    (sized 0x14#8).inQueue = 0x14#8 :: [] ∧ (sized 0x14#8).now < (sized 0x14#8).rxDeadline := by decide

/-- The block with `02 03 06 00 C2` of an `Ack` stored and its last byte waiting. -/
def lastAckByte : State :=
  { sized 0x82#8 with rxbuf := [(0, 0x02#8), (1, 0x03#8), (2, 0x06#8), (4, 0xC2#8)], rxCount := 5, crc := 0x82C2#16 }

/-- A message with a good CRC (`D4`), the same with a wrong one (`D5`), and an `Ack`. -/
theorem wit_ReceiveLastByte :
    (∀ s ∈ [lastByte 0xD4#8, lastByte 0xD5#8, lastAckByte], s.script = [] ∧ s.opened = true ∧ s.phase = .receivingFrame ∧
      3 ≤ s.rxCount ∧ s.rxCount + 1 = s.rxLen.toNat ∧ s.rxbuf.wf ∧ s.now < s.rxDeadline) ∧
    crc16 [0x02#8, 0x03#8, 0x06#8, 0x14#8] = le16 0x67#8 0xD4#8 ∧
    crc16 [0x02#8, 0x03#8, 0x06#8, 0x14#8] ≠ le16 0x67#8 0xD5#8 ∧
    crc16 [0x02#8, 0x03#8, 0x06#8, 0x00#8] = le16 0xC2#8 0x82#8 ∧
    classifyFrame 0xFF#8 [0x02#8, 0x03#8, 0x06#8, 0x14#8, 0x67#8, 0xD4#8] = .message [0x14#8] ∧
    classifyFrame 0xFF#8 [0x02#8, 0x03#8, 0x06#8, 0x00#8, 0xC2#8, 0x82#8] ∈ [.ack, .nack, .incrementCommand] := by decide

theorem wit_ReadTimeouts :
    (hunting.script = [] ∧ hunting.opened = true ∧ hunting.receiving ∧ hunting.inQueue = []) ∧
    ({ hunting with now := 2999 } : State).now < hunting.rxDeadline ∧
    hunting.rxDeadline ≤ ({ hunting with now := 3000 } : State).now ∧
    ({ hunting with inQueue := [0x02#8], now := 3000 } : State).inQueue = 0x02#8 :: [] ∧
    ({ hunting with inQueue := [0x02#8], now := 2999 } : State).now < hunting.rxDeadline := by decide

theorem wit_hunts : hunting.hunts := by constructor <;> decide

theorem wit_BareResponses :
    ({ hunting with params := { Params.default with incCmdCode := 0x77#8 } } : State).hunts ∧
    0x77#8 ≠ 0x00#8 ∧ 0x77#8 ≠ 0xFF#8 := ⟨by constructor <;> decide, by decide, by decide⟩

theorem wit_MessageResponses :
    hunting.hunts ∧ (0x14#8 ≠ 0x00#8 ∧ 0x14#8 ≠ 0xFF#8 ∧ 0x14#8 ≠ hunting.params.incCmdCode) ∧
    (2 ≤ [0x80#8, 0x07#8].length ∧ (List.replicate 250 0x02#8).length ≤ 250) ∧ hunting.writeSucceeds = true ∧
    ({ hunting with writeFaults := [some 0] } : State).writeFaults = some 0 :: [] := ⟨wit_hunts, by decide +kernel⟩

theorem wit_IllegalResponses :
    hunting.hunts ∧ 0x04#8 ≠ hunting.addr ∧ (0x05#8 : Byte).toNat < 6 ∧ (0x00#8 : Byte).toNat < 6 ∧
    (1 ≤ [0x15#8].length ∧ (List.replicate 250 0#8).length ≤ 250) ∧
    0xD467#16 ≠ crc16 ([0x02#8, 0x03#8, BitVec.ofNat 8 6] ++ [0x15#8]) := ⟨wit_hunts, by decide +kernel⟩

theorem wit_AddressMismatchRejected :
    hunting.hunts ∧ 0x04#8 ≠ hunting.addr ∧
    encode hunting.addr (.rspMessage1 0x04#8 0x14#8) =
      some (.slave, 0x02#8 :: 0x04#8 :: [0x06#8, 0x14#8, 0x62#8, 0x58#8]) ∧
    encode hunting.addr (.rspBadAddress 0x04#8) = some (.slave, 0x02#8 :: 0x04#8 :: []) := ⟨wit_hunts, by decide⟩

theorem wit_ResponsesWait :
    idle.opened = true ∧ ¬ idle.receiving ∧ nacking.opened = true ∧ ¬ nacking.receiving ∧
    encode idle.addr (.rspTooShort 0x03#8 0x05#8) = some (.slave, [0x02#8, 0x03#8, 0x05#8]) := by decide

theorem wit_StepRunsDecoded :
    ({ idle with script := [.wire .slave [0x02#8, 0x04#8], .observe] } : State).script =
      .wire .slave [0x02#8, 0x04#8] :: [.observe] ∧
    decode idle.params.incCmdCode .slave [0x02#8, 0x04#8] = .ok (.rspBadAddress 0x04#8) ∧
    ({ idle with script := [.present .poll] } : State).script = .present .poll :: [] ∧
    idle.params.incCmdCode = 0xFF#8 ∧ decodeTableWord 8 0x14 = some (.statusIdling []) := by decide

theorem wit_OtherSteps :
    ({ idle with script := [.advance 1] } : State).script = .advance 1 :: [] ∧
    ({ idle with script := [.drain 6] } : State).script = .drain 6 :: [] ∧
    ({ idle with script := [.arrive [0x02#8]] } : State).script = .arrive [0x02#8] :: [] ∧
    ({ idle with script := [.observe] } : State).script = .observe :: [] ∧ idle.script = [] ∧ idle.opened = true ∧
    idle.phase = .idle ∧ waiting.phase = .delay ∧ sending.phase = .sending ∧ hunting.receiving ∧
    breaking.phase = .breaking ∧ unbuilt.opened = false := by decide

theorem wit_DecodeEncodeAgree :
    (WellFormed 0xFF#8 (.exchange 0x34#8 [0xAA#8]) ∧
      encode 0x03#8 (.exchange 0x34#8 [0xAA#8]) =
        some (.reqVar, [0x02#8, 0x03#8, 0x07#8, 0x34#8, 0xAA#8, 0xD2#8, 0x64#8])) ∧
    (WellFormed 0xFF#8 .getBillOptions ∧
      encode 0x03#8 .getBillOptions = some (.hostOp, [0x02#8, 0x03#8, 0x06#8, 0x33#8, 0xDA#8, 0x81#8])) := by decide

/-- A state in the middle of a frame meets the invariant, and so does one with an ACK draining. -/
theorem wit_Inv : (lastByte 0xD4#8).Inv ∧ acking.Inv := by
  refine ⟨?_, ?_⟩
  · constructor <;> decide
  · constructor <;> decide

theorem wit_InvPreserved : ∃ t, step (lastByte 0xD4#8) = .next t := ⟨_, rfl⟩

theorem wit_BlockNeverStuck : (lastByte 0xD4#8).Inv ∧ (lastByte 0xD4#8).script = [] := ⟨wit_Inv.1, rfl⟩

/-- A step out of each of the seven states that the block leaves by itself. -/
theorem wit_PhaseTransitions :
    ∀ p ∈ [(waiting, Phase.sending), (sending, .waitingEcho), ({ hunting with inQueue := [0x02#8] }, .receivingFrame),
        (hunting, .waitingEcho), ({ hunting with now := 3000 }, .nackSent), (lastByte 0xD4#8, .ackSent), (lastByte 0xD5#8, .nackSent),
        (lastAckByte, .idle), (acking, .idle), (nacking, .idle), ({ breaking with now := 1250 }, .idle)],
      p.1.opened = true ∧ p.1.script = [] ∧ (after (step p.1)).map State.phase = some p.2 := by decide +kernel

/-- An operation that ends in this step, and one that goes on. -/
theorem wit_OneResultAtTheEnd :
    acking.Inv ∧ acking.opened = true ∧ acking.phase ≠ .idle ∧ (after (step acking)).map State.phase = some .idle ∧
    (lastByte 0xD4#8).Inv ∧ (after (step (lastByte 0xD4#8))).map State.phase = some .ackSent :=
  ⟨wit_Inv.2, by decide, by decide, by decide +kernel, wit_Inv.1, by decide +kernel⟩

/-- `SYNC` starts the count, a byte of the frame advances it, and it is 0 once the frame is answered, whole or cut short. -/
theorem wit_ReceiveCountRuns :
    (lastByte 0xD4#8).Inv ∧
    ∀ p ∈ [({ hunting with inQueue := [0x02#8] }, Phase.receivingFrame, 1), (sized 0x14#8, .receivingFrame, 4),
        (lastByte 0xD4#8, .ackSent, 0), ({ lastByte 0xD4#8 with inQueue := [], now := 3000 }, .nackSent, 0)],
      p.1.opened = true ∧ p.1.script = [] ∧ (after (step p.1)).map (fun t => (t.phase, t.rxCount)) = some p.2 :=
  ⟨wit_Inv.1, by decide +kernel⟩

/-- `rx_count` is 0 from the acceptance of an operation on, whatever it held in `Idle` (10_state.md R27). -/
theorem test_count_cleared :
    (after (exec .poll { idle with rxCount := 6 })).map (fun t => (t.phase, t.rxCount)) = some (.delay, 0) ∧
    (after (exec .resetAll { idle with rxCount := 6 })).map (fun t => (t.phase, t.rxCount)) = some (.breaking, 0) := by decide

/-- The UTF-8 of the euro sign is text; an overlong form, a surrogate, a cut sequence and 0xF5 are not what the check takes. -/
theorem test_utf8 :
    utf8WellFormed [0xE2#8, 0x82#8, 0xAC#8] = true ∧ utf8WellFormed [0xC0#8, 0x80#8] = false ∧
    utf8WellFormed [0xED#8, 0xA0#8, 0x80#8] = false ∧ utf8WellFormed [0xE2#8, 0x82#8] = false ∧
    utf8WellFormed [0xF5#8, 0x80#8, 0x80#8, 0x80#8] = false := by decide

/-- For `SpacingFloor`, `ConfigurationConstant` and `OutputInOrder`. -/
theorem wit_steps :
    (waiting.opened = true ∧ waiting.script = [] ∧ waiting.phase ≠ .idle ∧ ∃ t, step waiting = .next t) ∧
    (acking.opened = true ∧ acking.script = [] ∧ acking.phase ≠ .idle ∧ ∃ t, step acking = .next t) :=
  ⟨⟨rfl, rfl, by decide, _, rfl⟩, rfl, rfl, by decide, _, rfl⟩

theorem wit_WholeExchange :
    let s : State := { validated with
      phase := .idle
      script := [.present (.exchange 0x34#8 [0xAA#8]), .advance 150, .observe, .drain 255, .observe, .advance 1999,
        .present (.rspMessage 0x03#8 [0x80#8, 0x07#8]), .drain 6, .observe] }
    s.Inv ∧ s.ready ∧ s.outQueue = [] ∧ s.inQueue = [] ∧ s.writeFaults = [] ∧ s.addr = 0x03#8 := by
  refine ⟨?_, by decide⟩
  constructor <;> decide

end Sys2Proof.Tests
end

section
/-! SUPPORT. `InvPreserved`: the receive phase keeps what 10_state.md R30 and R31 say of the bytes stored so far, every way out of
an operation keeps the rest, and the cases of `Effect` put the two together. -/

namespace Sys2Proof.Machine

/-! ## The CRC of a growing list -/

theorem crcFrom_append (c : Word16) (xs ys : List Byte) : crcFrom c (xs ++ ys) = crcFrom (crcFrom c xs) ys := by
  induction xs generalizing c with
  | nil => rfl
  | cons x xs ih => simp [ih]

/-- The running form (40_frame_codec.md R112). -/
theorem crc16_concat (xs : List Byte) (b : Byte) : crc16 (xs ++ [b]) = crcUpdate (crc16 xs) b := by
  simp [crc16, crcFrom_append]

/-! ## Reading around the byte just stored -/

theorem Memory.readBytes_write_before (m : Memory) {n a : Nat} (b : Byte) (h : n ≤ a) :
    (m.write a b).readBytes 0 n = m.readBytes 0 n :=
  Memory.readBytes_congr fun _ _ _ => Memory.read_write_other m b (by omega)

theorem Memory.readBytes_write_end {m : Memory} (hm : m.wf) (n : Nat) (b : Byte) :
    (m.write n b).readBytes 0 (n + 1) = m.readBytes 0 n ++ [b] := by
  rw [Memory.readBytes_succ, Memory.readBytes_write_before m b le_rfl, Nat.zero_add, Memory.read_write_same hm.1]

/-! ## The frame received so far -/

/-- What `State.Inv.framed` says of the bytes stored, but for `rx_count < rx_len`: it holds of the whole frame too, at the moment
between its last byte and its validation. -/
structure State.FrameSoFar (s : State) : Prop where
  started : 1 ≤ s.rxCount
  sync : s.rxbuf.read 0 = Config.sync
  address : 2 ≤ s.rxCount → s.rxbuf.read 1 = s.addr
  declared : 3 ≤ s.rxCount → s.rxbuf.read 2 = s.rxLen ∧ Config.minLen ≤ s.rxLen.toNat
  crcRuns : s.crc = crc16 (s.rxbuf.readBytes 0 s.crcCovers)

theorem State.crcCovers_head {s : State} (h : s.rxCount < 3) : s.crcCovers = s.rxCount := by
  simp [State.crcCovers, h]

theorem State.crcCovers_tail {s : State} (h : 3 ≤ s.rxCount) : s.crcCovers = min s.rxCount (s.rxLen.toNat - 2) := by
  simp [State.crcCovers, Nat.not_lt.mpr h]

/-- A register that covers every byte stored covers the next byte too once it has run over it. -/
theorem State.crc_runCrc_storeRx {s : State} (hm : s.rxbuf.wf) (hc : s.crc = crc16 (s.rxbuf.readBytes 0 s.rxCount))
    (b : Byte) :
    ((s.storeRx b).runCrc b).crc = crc16 ((s.storeRx b).rxbuf.readBytes 0 (s.rxCount + 1)) := by
  simp only [State.runCrc_crc, State.storeRx_crc, State.storeRx_rxbuf]
  rw [Memory.readBytes_write_end hm, crc16_concat, hc]

theorem State.syncSeen_frameSoFar {s : State} (hm : s.rxbuf.wf) : s.syncSeen.FrameSoFar where
  started := le_rfl
  sync := Memory.read_write_same hm.1 0 _
  address h := absurd h (by simp)
  declared h := absurd h (by simp)
  crcRuns := by
    rw [State.crcCovers_head (by simp)]
    simp [Memory.readBytes_write_end hm 0, Memory.readBytes, crc16]

/-- The second byte, the block's address (42_link_protocol.md R170). -/
theorem State.FrameSoFar.storeAddress {s : State} (h : s.FrameSoFar) (hm : s.rxbuf.wf) (h1 : s.rxCount = 1) :
    ((s.storeRx s.addr).runCrc s.addr).FrameSoFar where
  started := by simp
  sync := by simpa [Memory.read_write_other, h1] using h.sync
  address _ := by simpa [h1] using Memory.read_write_same hm.1 1 s.addr
  declared h3 := absurd h3 (by simp [h1])
  crcRuns := by
    rw [State.crcCovers_head (by simp [h1])]
    exact State.crc_runCrc_storeRx hm (by rw [h.crcRuns, State.crcCovers_head (by omega)]) _

/-- The third byte, the declared length (R171). -/
theorem State.FrameSoFar.storeLength {s : State} (h : s.FrameSoFar) (hm : s.rxbuf.wf) (h2 : s.rxCount = 2) {b : Byte}
    (hb : Config.minLen ≤ b.toNat) :
    State.FrameSoFar { (s.storeRx b).runCrc b with rxLen := b } where
  started := by simp
  sync := by simpa [Memory.read_write_other, h2] using h.sync
  address _ := by simpa [Memory.read_write_other, h2] using h.address h2.ge
  declared _ := ⟨by simpa [h2] using Memory.read_write_same hm.1 2 b, hb⟩
  crcRuns := by
    rw [State.crcCovers_tail (by simp [h2])]
    have hall : min (s.rxCount + 1) (b.toNat - 2) = s.rxCount + 1 := by
      simp only [Config.minLen] at hb; omega
    have hrun := State.crc_runCrc_storeRx hm (by rw [h.crcRuns, State.crcCovers_head (by omega)]) b
    simpa [hall] using hrun

@[simp] theorem State.storeBody_rxCount (s : State) (b : Byte) : (s.storeBody b).rxCount = s.rxCount + 1 := by
  rcases s.storeBody_cases b with ⟨-, hs⟩ | ⟨-, hs⟩ <;> simp [hs]

@[simp] theorem State.storeBody_rxLen (s : State) (b : Byte) : (s.storeBody b).rxLen = s.rxLen := by
  rcases s.storeBody_cases b with ⟨-, hs⟩ | ⟨-, hs⟩ <;> simp [hs]

@[simp] theorem State.storeBody_phase (s : State) (b : Byte) : (s.storeBody b).phase = s.phase := by
  rcases s.storeBody_cases b with ⟨-, hs⟩ | ⟨-, hs⟩ <;> simp [hs]

@[simp] theorem State.storeBody_outQueue (s : State) (b : Byte) : (s.storeBody b).outQueue = s.outQueue := by
  rcases s.storeBody_cases b with ⟨-, hs⟩ | ⟨-, hs⟩ <;> simp [hs]

/-- A byte after the third (R172): the CRC stops before the two bytes of the CRC field. -/
theorem State.FrameSoFar.storeBody {s : State} (h : s.FrameSoFar) (hm : s.rxbuf.wf) (h3 : 3 ≤ s.rxCount) (b : Byte) :
    (s.storeBody b).FrameSoFar := by
  have hsync : (s.rxbuf.write s.rxCount b).read 0 = Config.sync := by
    rw [Memory.read_write_other _ _ (by omega), h.sync]
  have haddr : (s.rxbuf.write s.rxCount b).read 1 = s.addr := by
    rw [Memory.read_write_other _ _ (by omega), h.address (by omega)]
  have hlen : (s.rxbuf.write s.rxCount b).read 2 = s.rxLen := by
    rw [Memory.read_write_other _ _ (by omega), (h.declared h3).1]
  have hcrc := h.crcRuns
  rw [State.crcCovers_tail h3] at hcrc
  rcases s.storeBody_cases b with ⟨hin, hs⟩ | ⟨hout, hs⟩ <;> rw [hs]
  · refine ⟨by simp, hsync, fun _ => haddr, fun _ => ⟨hlen, (h.declared h3).2⟩, ?_⟩
    rw [State.crcCovers_tail (by simp; omega)]
    rw [min_eq_left hin.le] at hcrc
    simpa [min_eq_left (Nat.succ_le_of_lt hin)] using State.crc_runCrc_storeRx hm hcrc b
  · refine ⟨by simp, hsync, fun _ => haddr, fun _ => ⟨hlen, (h.declared h3).2⟩, ?_⟩
    rw [State.crcCovers_tail (by simp; omega)]
    rw [min_eq_right hout] at hcrc
    simpa [min_eq_right (Nat.le_succ_of_le hout), Memory.readBytes_write_before _ _ hout] using hcrc

/-- A whole frame with a matching CRC validates as what it classifies as: address and length were tested on the way
(42_link_protocol.md R173). -/
theorem State.FrameSoFar.validate {s : State} (h : s.FrameSoFar) (h3 : 3 ≤ s.rxCount)
    (hc : crc16 (protectedPart s.rxFrame) = carriedCrc s.rxFrame) (inc : Byte) :
    validateResponse inc s.rxFrame s.addr = .ok (classifyFrame inc s.rxFrame) := by
  obtain ⟨hlen, hmin⟩ := h.declared h3
  have hsize : s.rxFrame.length = s.rxLen.toNat := Memory.length_readBytes ..
  have hbyte : ∀ k, k < 6 → s.rxFrame.getD k 0 = s.rxbuf.read k := fun k hk => by
    have hk' : k < s.rxFrame.length := by simp only [Config.minLen] at hmin; omega
    rw [List.getD_eq_getElem _ _ hk']
    exact (Memory.getElem_readBytes s.rxbuf 0 s.rxLen.toNat k hk').trans (by rw [Nat.zero_add])
  have hsix : ¬ s.rxFrame.length < Config.minLen := by omega
  have hthree : ¬ s.rxFrame.length < 3 := by simp only [Config.minLen] at hsix; omega
  have hone : s.rxFrame.getD 1 0 = s.addr := (hbyte 1 (by omega)).trans (h.address (by omega))
  have htwo : s.rxFrame.getD 2 0 = s.rxLen := (hbyte 2 (by omega)).trans hlen
  simp only [validateResponse, hthree, hsix, hone, htwo, Nat.not_lt.mpr hmin, hc, ne_eq, not_true_eq_false, if_false]

/-! ## An operation that runs -/

/-- What holds while an operation runs and no break is asserted, whatever `state` and `rx_count` are: the part of `State.Inv`
that taking an error, sending an answer and returning rest on. -/
structure State.Running (s : State) : Prop where
  pollPositive : 0 < s.params.delayPollMs ∧ 0 < s.params.txPollMs
  noResultYet : s.opened = true → s.res = none
  rxForm : s.rxbuf.wf
  txForm : s.txbuf.wf
  txLenBound : s.txLen ≤ Config.maxFrame
  stampPast : s.lastReq ≤ s.now
  noBreak : s.breakOn = false

theorem State.Inv.running {s : State} {p : Phase} (h : s.Inv) (hp : s.phase = p) (hi : p ≠ .idle := by decide)
    (hb : p ≠ .breaking := by decide) : s.Running where
  pollPositive := h.pollPositive
  noResultYet ho := h.noResultYet ho (hp ▸ hi)
  rxForm := h.rxForm
  txForm := h.txForm
  txLenBound := h.txLenBound
  stampPast := h.stampPast
  noBreak := by simpa [hp, hb] using h.breakPhase

theorem State.Inv.running_of_receiving {s : State} (h : s.Inv) (hr : s.receiving) : s.Running := by
  rcases hr with hp | hp
  · exact h.running hp
  · exact h.running hp

theorem State.Inv.frameSoFar {s : State} (h : s.Inv) (hp : s.phase = .receivingFrame) : s.FrameSoFar := by
  obtain ⟨hstarted, hsync, haddress, hdeclared, hcrc⟩ := h.framed hp
  exact ⟨hstarted, hsync, haddress, fun h3 => ⟨(hdeclared h3).1, (hdeclared h3).2.1⟩, hcrc⟩

/-- A state that counts no bytes, in any phase but `ReceivingFrame` and `Breaking`. -/
theorem State.Running.inv_uncounted {s : State} (h : s.Running) (hf : s.phase ≠ .receivingFrame)
    (hb : s.phase ≠ .breaking) (hc : s.rxCount = 0) (hq : s.receiving → s.outQueue = [])
    (ha : s.phase = .ackSent → validateResponse s.params.incCmdCode s.rxFrame s.addr = .ok (.message s.message))
    (hn : s.phase = .nackSent → s.pendErr ≠ none) : s.Inv where
  pollPositive := h.pollPositive
  noResultYet ho _ := h.noResultYet ho
  rxForm := h.rxForm
  txForm := h.txForm
  rxCountBound := by simp [hc]
  txLenBound := h.txLenBound
  stampPast := h.stampPast
  breakPhase := by simp [h.noBreak, hb]
  halfDuplex := hq
  notCounting _ _ := hc
  framed hp := absurd hp hf
  acked := ha
  nacked := hn

/-- A state in the middle of a frame. -/
theorem State.Running.inv_receivingFrame {s : State} (h : s.Running) (hp : s.phase = .receivingFrame)
    (hf : s.FrameSoFar) (hl : 3 ≤ s.rxCount → s.rxCount < s.rxLen.toNat) (hq : s.outQueue = []) : s.Inv where
  pollPositive := h.pollPositive
  noResultYet ho _ := h.noResultYet ho
  rxForm := h.rxForm
  txForm := h.txForm
  rxCountBound := by
    have := s.rxLen.isLt
    simp only [Config.maxFrame]
    omega
  txLenBound := h.txLenBound
  stampPast := h.stampPast
  breakPhase := by simp [h.noBreak, hp]
  halfDuplex _ := hq
  notCounting hn := absurd hp hn
  framed _ := ⟨hf.started, hf.sync, hf.address, fun h3 => ⟨(hf.declared h3).1, (hf.declared h3).2, hl h3⟩, hf.crcRuns⟩
  acked ha := by simp [hp] at ha
  nacked hn := by simp [hp] at hn

/-- The end of an operation, with any result (10_state.md R46). -/
theorem State.Running.finish_inv {s : State} (h : s.Running) (r : Result) : (s.finish r).Inv where
  pollPositive := h.pollPositive
  noResultYet _ hi := absurd rfl hi
  rxForm := h.rxForm
  txForm := h.txForm
  rxCountBound := Nat.le_of_lt_succ (Config.idleRxCount s.ended).isLt
  txLenBound := h.txLenBound
  stampPast := h.stampPast
  breakPhase := by simp [h.noBreak]
  halfDuplex hr := by simp [State.receiving] at hr
  notCounting _ hi := absurd rfl hi
  framed hp := by simp at hp
  acked hp := by simp at hp
  nacked hp := by simp at hp

theorem State.Running.loadTx {s : State} (h : s.Running) {f : List Byte} (hf : f.length ≤ Config.maxFrame) :
    (s.loadTx f).Running :=
  { h with txForm := Memory.wf_writeBytes h.txForm (by omega), txLenBound := hf }

theorem State.Running.storeRx {s : State} (h : s.Running) (hc : s.rxCount < Config.maxFrame) (b : Byte) :
    (s.storeRx b).Running :=
  { h with rxForm := Memory.wf_write h.rxForm hc b }

theorem State.Running.storeBody {s : State} (h : s.Running) (hc : s.rxCount < Config.maxFrame) (b : Byte) :
    (s.storeBody b).Running := by
  rcases s.storeBody_cases b with ⟨-, hs⟩ | ⟨-, hs⟩ <;> rw [hs]
  · exact { h.storeRx hc b with }
  · exact h.storeRx hc b

/-! ## Answering a frame -/

theorem State.Running.sendNack_inv {s : State} (h : s.Running) (e : Err) (hp : s.pendErr ≠ none) : (s.sendNack e).Inv := by
  have hl : (s.loadTx s.nackFrame).Running := h.loadTx (by simp [State.nackFrame, Config.maxFrame])
  rcases s.sendNack_cases e with ⟨-, hs⟩ | ⟨-, k, hs⟩ <;> rw [hs]
  · exact State.Running.inv_uncounted { hl with } (by simp) (by simp) rfl (by simp [State.receiving]) (by simp) fun _ => hp
  · refine State.Running.finish_inv ?_ _
    exact { hl with }

theorem State.Running.failRx_inv {s : State} (h : s.Running) (e : Err) : (s.failRx e).Inv := by
  rcases s.failRx_cases e with ⟨-, -, hs⟩ | ⟨-, hs⟩ <;> rw [hs]
  · exact h.finish_inv _
  · refine State.Running.sendNack_inv ?_ e (by simp)
    exact { h with }

theorem State.Running.sendAck_inv {s : State} (h : s.Running) {m : List Byte}
    (hv : validateResponse s.params.incCmdCode s.rxFrame s.addr = .ok (.message m)) : (s.sendAck m).Inv := by
  have hl : (s.loadTx s.ackFrame).Running := h.loadTx (by simp [State.ackFrame, Config.maxFrame])
  rcases s.sendAck_cases m with ⟨-, hs⟩ | ⟨-, k, hs⟩ <;> rw [hs]
  · exact State.Running.inv_uncounted { hl with } (by simp) (by simp) rfl (by simp [State.receiving]) (fun _ => hv) (by simp)
  · refine State.Running.finish_inv ?_ _
    exact { hl with }

theorem State.Running.finishFrame_inv {s : State} (h : s.Running) (hf : s.FrameSoFar) (h3 : 3 ≤ s.rxCount) :
    (finishFrame s).Inv := by
  rcases finishFrame_cases s with ⟨-, hs⟩ | ⟨hc, m, hm, hs⟩ | ⟨-, -, hs⟩ <;> rw [hs]
  · exact h.failRx_inv _
  · exact h.sendAck_inv (by rw [hf.validate h3 hc, hm])
  · exact h.finish_inv _

/-! ## The receive phase -/

/-- A byte read while the block hunts for `SYNC` (42_link_protocol.md R168). -/
theorem takeByte_waitingEcho_inv {s t : State} {b : Byte} (h : s.Inv) (hp : s.phase = .waitingEcho)
    (ht : takeByte b s = .next t) : t.Inv := by
  rw [takeByte_waitingEcho hp, Host.Outcome.next.injEq] at ht
  subst ht
  split_ifs
  · have hrun : s.syncSeen.Running := { h.running hp with rxForm := Memory.wf_write h.rxForm (by simp) _ }
    exact hrun.inv_receivingFrame rfl (State.syncSeen_frameSoFar h.rxForm) (by simp) (h.halfDuplex (.inl hp))
  · exact h

/-- A byte read in `ReceivingFrame` (R170 to R173). -/
theorem takeByte_receivingFrame_inv {s t : State} {b : Byte} (h : s.Inv) (hp : s.phase = .receivingFrame)
    (ht : takeByte b s = .next t) : t.Inv := by
  have hrun := h.running hp
  have hq := h.halfDuplex (.inr hp)
  have hf := h.frameSoFar hp
  have hmax : s.rxLen.toNat ≤ Config.maxFrame := Nat.le_of_lt_succ s.rxLen.isLt
  rcases takeByte_receivingFrame hp b with ⟨h1, rfl, hs⟩ | ⟨h1, -, hs⟩ | ⟨h2, hb, hs⟩ | ⟨h2, -, hs⟩ | ⟨h3, hl, hs⟩ |
    ⟨h3, hl, hs⟩ | ⟨-, hs⟩ <;> rw [hs] at ht <;> simp only [Host.Outcome.next.injEq, reduceCtorEq] at ht <;> subst ht
  · have hrun' := hrun.storeRx (by simp [h1]) s.addr
    exact State.Running.inv_receivingFrame { hrun' with } hp (hf.storeAddress h.rxForm h1) (by simp [h1]) hq
  · have hrun' := hrun.storeRx (by simp [h1]) b
    refine State.Running.failRx_inv ?_ _
    exact { hrun' with }
  · have hrun' := hrun.storeRx (by simp [h2, Config.maxFrame]) b
    have hmore : 2 + 1 < b.toNat := by simp only [Config.minLen] at hb; omega
    exact State.Running.inv_receivingFrame { hrun' with } hp (hf.storeLength h.rxForm h2 hb)
      (fun _ => by simpa [h2] using hmore) hq
  · have hrun' := hrun.storeRx (by simp [h2, Config.maxFrame]) b
    refine State.Running.failRx_inv ?_ _
    exact { hrun' with }
  · exact (hrun.storeBody (by omega) b).inv_receivingFrame (by simpa using hp) (hf.storeBody h.rxForm h3 b)
      (fun _ => by simpa using hl) (by simpa using hq)
  · exact (hrun.storeBody (by omega) b).finishFrame_inv (hf.storeBody h.rxForm h3 b) (by simp; omega)

theorem takeByte_inv {s t : State} {b : Byte} (h : s.Inv) (hr : s.receiving) (ht : takeByte b s = .next t) : t.Inv := by
  rcases hr with hp | hp
  · exact takeByte_waitingEcho_inv h hp ht
  · exact takeByte_receivingFrame_inv h hp ht

/-- The invariant does not look at the input queue, the deadline or the tie counter. -/
theorem receiveStep_inv {s t : State} (h : s.Inv) (hr : s.receiving) (ht : receiveStep s = .next t) : t.Inv := by
  rcases receiveStep_cases s with ⟨b, rest, -, -, hs⟩ | ⟨b, rest, -, -, -, hs⟩ | ⟨b, rest, -, -, -, hs⟩ | ⟨-, -, hs⟩ |
    ⟨-, -, hs⟩ <;> rw [hs] at ht
  · exact takeByte_inv (s := s.takeInput rest) { h with } hr ht
  · exact takeByte_inv (s := State.takeInput { s with ties := s.ties + 1 } rest) { h with } hr ht
  · obtain rfl := Host.Outcome.next.inj ht
    refine State.Running.failRx_inv ?_ _
    exact { h.running_of_receiving hr with }
  · obtain rfl := Host.Outcome.next.inj ht
    exact (h.running_of_receiving hr).failRx_inv _
  · obtain rfl := Host.Outcome.next.inj ht
    exact h

theorem receiveUpTo_inv {n : Nat} {s t : State} (h : s.Inv) (ht : receiveUpTo n s = .next t) : t.Inv :=
  receiveUpTo_induct (P := State.Inv) (fun _ _ hs hr => receiveStep_inv hs hr) n s t h ht

/-! ## Every effect -/

/-- The row of the ACK frame runs on a validated message only. -/
theorem State.validated_of_messageReceived {s : State} {m : List Byte} (h : s.messageReceived = some m) :
    s.phase = .receivingFrame ∧ validateResponse s.params.incCmdCode s.rxFrame s.addr = .ok (.message m) := by
  unfold State.messageReceived at h
  split_ifs at h with hp
  split at h
  · rename_i m' hv
    exact ⟨hp.1, Option.some.inj h ▸ hv⟩
  · simp at h

/-- The request in `txbuf`, stamped, the input cleared or not. -/
theorem State.Running.requestLoaded {s : State} (h : s.Running) (hl : s.curPayload.length < 250) :
    (s.requestLoaded s.request).Running :=
  { h.loadTx (f := s.request) (by simp [Config.maxFrame]; omega) with stampPast := le_rfl }

/-- Every way an instruction or the block's own step goes on keeps the invariant. -/
theorem Effect.inv {s t : State} (h : s.Inv) (e : Effect s t) : t.Inv := by
  cases e with
  | same => exact h
  | returned => exact { h with }
  | encoded _ _ _ _ _ hp hl =>
    exact { h with
      txForm := Memory.wf_writeBytes h.txForm (by simp [Config.maxFrame]; omega)
      txLenBound := by simp [Config.maxFrame]; omega
      framed := fun hf => by simp [hp] at hf }
  | stamped => exact { h with stampPast := le_rfl }
  | status _ _ hp => exact { h with noResultYet := fun _ hi => absurd hp hi }
  | accepted _ _ _ _ hp =>
    have hb : s.breakOn = false := by simpa [hp] using h.breakPhase
    exact State.Running.inv_uncounted { h with noResultYet := fun _ => rfl, noBreak := hb } (by simp) (by simp) rfl
      (by simp [State.receiving]) (by simp) (by simp)
  | breakBegun ho =>
    exact { h with
      noResultYet := fun _ _ => rfl
      rxCountBound := Nat.zero_le _
      breakPhase := by simp [ho]
      halfDuplex := by simp [State.receiving]
      notCounting := fun _ _ => rfl
      framed := by simp
      acked := by simp
      nacked := by simp }
  | breakEnded ho hp =>
    refine State.Running.finish_inv ?_ _
    exact { h with noResultYet := fun _ => h.noResultYet ho (by simp [hp]), noBreak := rfl }
  | constructed =>
    exact { h with
      noResultYet := fun _ _ => rfl
      rxCountBound := Nat.zero_le _
      stampPast := le_rfl
      breakPhase := by simp
      halfDuplex := fun _ => rfl
      notCounting := fun _ _ => rfl
      framed := by simp
      acked := by simp
      nacked := by simp }
  | notOpened ho => exact { h with noResultYet := fun ho' => by simp [ho] at ho' }
  | tooLarge _ hp =>
    refine State.Running.finish_inv ?_ _
    exact { h.running hp with stampPast := le_rfl }
  | requestSent _ hp _ hl =>
    have hr := (h.running hp).requestLoaded hl
    exact State.Running.inv_uncounted { hr with } (by simp) (by simp) (h.notCounting (by simp [hp]) (by simp [hp]))
      (by simp [State.receiving]) (by simp) (by simp)
  | requestLost _ _ hp _ hl =>
    have hr := (h.running hp).requestLoaded hl
    refine State.Running.finish_inv ?_ _
    exact { hr with }
  | requestDrained _ hp hq =>
    exact State.Running.inv_uncounted { h.running hp with } (by simp) (by simp) rfl
      (fun _ => hq) (by simp) (by simp)
  | ackDrained _ hp => exact (h.running hp).finish_inv _
  | nackDrained _ _ hp => exact (h.running hp).finish_inv _
  | acked _ _ hm =>
    obtain ⟨hp, hv⟩ := State.validated_of_messageReceived hm
    exact (h.running hp).sendAck_inv hv
  | nacked e _ hr he => exact (h.running_of_receiving hr).sendNack_inv e (by simp [he])
  | bytesRead bytes _ _ _ _ ht => exact receiveUpTo_inv (s := { s with inQueue := s.inQueue ++ bytes }) { h with } ht
  | bytesQueued => exact { h with }
  | readOnce _ _ hr ht => exact receiveStep_inv h hr ht

theorem State.Inv.advance {s : State} (h : s.Inv) (ms : Nat) : (s.advance ms).Inv :=
  { h with stampPast := h.stampPast.trans (Nat.le_add_right ..) }

theorem State.Inv.drain {s : State} (h : s.Inv) (n : Nat) : (s.drain n).Inv :=
  { h with halfDuplex := fun hr => by simp [h.halfDuplex hr] }

/-- Settles O51: by the cases of what a step can do (`step_effect`): time, the drain, or an `Effect`. -/
theorem invPreserved : Obligations.InvPreserved := by
  intro s t h ht
  rcases step_effect ht with ⟨m, rest, -, hm⟩ | ⟨-, e⟩
  · have h' : State.Inv { s with script := rest } := { h with }
    rcases hm with ⟨ms, rfl⟩ | ⟨n, rfl⟩ | e
    · exact h'.advance ms
    · exact h'.drain n
    · exact e.inv h'
  · exact e.inv h

end Sys2Proof.Machine
end

section
/-! SUPPORT. `OperationsOnlyInIdle` and `ConstructFailure`: every operation of a block is taken through `State.whenIdle`, and
`construct` looks at `opened` first and then at the transport. -/

namespace Sys2Proof.Machine

/-- The nine operations of a constructed block (10_state.md R42). -/
abbrev blockOperations (cmd : Byte) (payload : List Byte) : List Instr :=
  [.exchange cmd payload, .poll, .getBillOptions, .getBillTable, .info, .cassetteStatus, .stackBill, .returnBill, .resetAll]

/-- An operation of a block is accepted or turned away by `State.whenIdle` alone (10_state.md R41, R43). -/
theorem exec_blockOperation {cmd : Byte} {payload : List Byte} {i : Instr} (hi : i ∈ blockOperations cmd payload)
    (s : State) : ∃ o : Out, exec i s = s.whenIdle o := by
  simp only [List.mem_cons, List.not_mem_nil, or_false] at hi
  rcases hi with rfl | rfl | rfl | rfl | rfl | rfl | rfl | rfl | rfl <;> exact ⟨_, rfl⟩

theorem State.whenIdle_noBlock {s : State} (h : s.opened = false) (o : Out) : s.whenIdle o = .fault .noBlock :=
  if_pos h

/-- What `construct` answers: it stops at a constructed block, and else constructs one or leaves the error of the transport. -/
theorem execConstruct_cases (path : String) (a : Byte) (b : Baud) (s : State) :
    (s.opened = true ∧ exec (.construct path a b) s = .fault .alreadyConstructed) ∨
    (s.opened = false ∧ s.openOk = true ∧ exec (.construct path a b) s =
      .next { s with
        addr := a, baud := b, opened := true, lastReq := s.now, phase := .idle, rxCount := 0, pendErr := none
        res := none, outQueue := [], breakOn := false
        port := some { path := path, rate := b.rate, parity := .none, flow := .none, readTimeout := Config.tRead } }) ∨
    (s.opened = false ∧ s.openOk = false ∧
      exec (.construct path a b) s = .next (s.setRes (.err .openFailure))) := by
  cases ho : s.opened
  · cases hk : s.openOk <;> simp [exec, execConstruct, State.openPort, ho, hk]
  · simp [exec, execConstruct, ho]

/-- Settles O23: both kinds of operation look at the register that admits them before anything else. -/
theorem operationsOnlyInIdle : Obligations.OperationsOnlyInIdle := by
  intro s t cmd payload path a b
  refine ⟨fun i hi h => ?_, fun h => ?_⟩
  · obtain ⟨o, ho⟩ := exec_blockOperation hi s
    obtain ⟨hopened, hidle, -⟩ := State.whenIdle_next (ho ▸ h)
    exact ⟨hopened, hidle⟩
  · rcases execConstruct_cases path a b s with ⟨-, h'⟩ | ⟨ho, -⟩ | ⟨ho, -⟩
    · simp [h'] at h
    · exact ho
    · exact ho

/-- Settles O26: the failing branch of `construct`, which leaves `opened` false for the next operation to meet. -/
theorem constructFailure : Obligations.ConstructFailure := by
  intro s path a b ho hk
  refine ⟨?_, fun cmd payload i hi => ?_⟩
  · rcases execConstruct_cases path a b s with ⟨ho', -⟩ | ⟨-, hk', -⟩ | ⟨-, -, h⟩
    · simp [ho] at ho'
    · simp [hk] at hk'
    · exact h
  · obtain ⟨o, h⟩ := exec_blockOperation hi { s with res := some (.err .openFailure) }
    exact h.trans (State.whenIdle_noBlock ho o)

end Sys2Proof.Machine
end

section
/-! SUPPORT. `StepRunsDecoded` and `OtherSteps`: the step by the head of the script, and the block's own step by `state`. -/

namespace Sys2Proof.Machine

/-! ## The step by the script -/

theorem step_of_script_nil {s : State} (h : s.script = []) : step s = blockMove s := by
  simp only [step, nextMove, h]

theorem step_of_script_cons {s : State} {m : Move} {rest : List Move} (h : s.script = m :: rest) :
    step s = runMove m { s with script := rest } := by
  simp only [step, nextMove, h]

theorem runWire_of_decode {s : State} {f : Format} {bytes : List Byte} {i : Instr}
    (h : decode s.params.incCmdCode f bytes = .ok i) : runWire f bytes s = exec i s := by
  simp only [runWire, h]

/-- The word is read with the default `INC_CMD_CODE` in the format its width gives (assumption log 6). -/
theorem decode_of_decodeTableWord {nbits w : Nat} {i : Instr} (h : decodeTableWord nbits w = some i) :
    decode 0xFF#8 (tableFormat nbits w) (tableBytes nbits w) = .ok i := by
  unfold decodeTableWord at h
  split at h
  · rename_i j hj
    rw [← Option.some.inj h]
    exact hj
  · simp at h

/-- The word presented is taken off the script again by the step that decodes it. -/
theorem step_withFetchWord (s : State) (nbits w : Nat) :
    step (s.withFetchWord nbits w) = runWire (tableFormat nbits w) (tableBytes nbits w) s :=
  step_of_script_cons (s := s.withFetchWord nbits w) rfl

/-- Settles O47: a step runs the move at the head of the script, and a decoded word runs as its instruction. -/
theorem stepRunsDecoded : Obligations.StepRunsDecoded := by
  refine ⟨fun s f bytes rest i hs hd => ?_, fun s i rest hs => ?_, fun s nbits w i hinc hw => ?_⟩
  · rw [step_of_script_cons hs]
    exact runWire_of_decode hd
  · exact step_of_script_cons hs
  · rw [step_withFetchWord]
    exact runWire_of_decode (hinc ▸ decode_of_decodeTableWord hw)

/-! ## The block's own step by `state` -/

section
variable {s : State}

theorem State.deliver_opened (h : s.opened = true) (bytes : List Byte) :
    s.deliver bytes = { s with inQueue := s.inQueue ++ bytes } := if_pos h

theorem blockMove_noBlock (h : s.opened = false) : blockMove s = .next s := if_pos h

theorem blockMove_idle (h : s.opened = true) (hp : s.phase = .idle) : blockMove s = .next s := by
  simp [blockMove, h, hp]

theorem blockMove_delay (h : s.opened = true) (hp : s.phase = .delay) :
    blockMove s = exec .delayBeforeRequest s := by
  simp [blockMove, h, hp]

theorem blockMove_draining (h : s.opened = true) (hp : s.phase = .sending ∨ s.phase = .ackSent ∨ s.phase = .nackSent) :
    blockMove s = exec .waitForTransmitComplete s := by
  rcases hp with hp | hp | hp <;> simp [blockMove, h, hp]

theorem blockMove_receiving (h : s.opened = true) (hr : s.receiving) : blockMove s = receiveStep s := by
  rcases hr with hp | hp <;> simp [blockMove, h, hp]

theorem blockMove_breaking (h : s.opened = true) (hp : s.phase = .breaking) : blockMove s = exec .resetLink s := by
  simp [blockMove, h, hp]

end

/-- Settles O48: the moves by the head of the script, then the block's own step by `state`. -/
theorem otherSteps : Obligations.OtherSteps := by
  intro s
  refine ⟨fun rest ms hs => step_of_script_cons hs, fun rest n hs => step_of_script_cons hs, fun rest bytes hs ho => ?_,
    fun rest hs => step_of_script_cons hs, step_of_script_nil, blockMove_noBlock, fun ho =>
    ⟨blockMove_idle ho, blockMove_delay ho, blockMove_draining ho, blockMove_receiving ho, blockMove_breaking ho⟩⟩
  rw [step_of_script_cons hs]
  exact congrArg Host.Outcome.next (State.deliver_opened (s := { s with script := rest }) ho bytes)

end Sys2Proof.Machine
end

section
/-! SUPPORT. `OneResultAtTheEnd` and `ReceiveCountRuns`: the ways out of the receive phase, what one read leaves of `state`,
`rx_count` and the input queue (`ReadEffect`), and from both the two statements by the cases of `Effect`. -/

namespace Sys2Proof.Machine

/-! ## The ways out of the receive phase -/

/-- From `s` the receive phase is left for `t`: an ACK or NACK drains, or the operation has ended and its result stands in `res`
(10_state.md R46, 42_link_protocol.md R173 to R177). -/
structure State.ReceiveLeft (s t : State) : Prop where
  sameBlock : t.opened = s.opened
  outcome : t.phase = .ackSent ∨ t.phase = .nackSent ∨ t.phase = .idle ∧ ∃ r, t.res = some r

theorem State.finish_receiveLeft (s : State) (r : Result) : s.ReceiveLeft (s.finish r) :=
  ⟨rfl, .inr (.inr ⟨rfl, r, rfl⟩)⟩

theorem State.sendNack_receiveLeft (s : State) (e : Err) : s.ReceiveLeft (s.sendNack e) := by
  rcases s.sendNack_cases e with ⟨-, h⟩ | ⟨-, k, h⟩ <;> rw [h]
  · exact ⟨rfl, .inr (.inl rfl)⟩
  · exact ⟨rfl, .inr (.inr ⟨rfl, _, rfl⟩)⟩

theorem State.sendAck_receiveLeft (s : State) (m : List Byte) : s.ReceiveLeft (s.sendAck m) := by
  rcases s.sendAck_cases m with ⟨-, h⟩ | ⟨-, k, h⟩ <;> rw [h]
  · exact ⟨rfl, .inl rfl⟩
  · exact ⟨rfl, .inr (.inr ⟨rfl, _, rfl⟩)⟩

theorem State.failRx_receiveLeft (s : State) (e : Err) : s.ReceiveLeft (s.failRx e) := by
  rcases s.failRx_cases e with ⟨-, -, h⟩ | ⟨-, h⟩ <;> rw [h]
  · exact s.finish_receiveLeft _
  · exact { (s.setPendErr e).sendNack_receiveLeft e with }

theorem finishFrame_receiveLeft (s : State) : s.ReceiveLeft (finishFrame s) := by
  rcases finishFrame_cases s with ⟨-, h⟩ | ⟨-, m, -, h⟩ | ⟨-, -, h⟩ <;> rw [h]
  · exact s.failRx_receiveLeft _
  · exact s.sendAck_receiveLeft m
  · exact s.finish_receiveLeft _

theorem State.ReceiveLeft.not_receivingFrame {s t : State} (h : s.ReceiveLeft t) : t.phase ≠ .receivingFrame := by
  rcases h.outcome with hp | hp | ⟨hp, -⟩ <;> simp [hp]

/-! ## One read -/

@[simp] theorem State.storeBody_opened (s : State) (b : Byte) : (s.storeBody b).opened = s.opened := by
  rcases s.storeBody_cases b with ⟨-, h⟩ | ⟨-, h⟩ <;> simp [h]

@[simp] theorem State.storeBody_inQueue (s : State) (b : Byte) : (s.storeBody b).inQueue = s.inQueue := by
  rcases s.storeBody_cases b with ⟨-, h⟩ | ⟨-, h⟩ <;> simp [h]

/-- What one read of the receive phase leaves of the pair (`state`, `rx_count`) and of the input queue (10_state.md R27). -/
inductive ReadEffect (s t : State) : Prop
  /-- No byte is there yet. -/
  | waited (ht : t = s)
  /-- A byte before `SYNC` is dropped (42_link_protocol.md R168). -/
  | skipped (ho : t.opened = s.opened) (hp : s.phase = .waitingEcho) (ht : t.phase = .waitingEcho)
  /-- `SYNC` starts the count. -/
  | started (ho : t.opened = s.opened) (hp : s.phase = .waitingEcho) (ht : t.phase = .receivingFrame) (hc : t.rxCount = 1)
      (hq : s.inQueue.length = t.inQueue.length + 1)
  /-- A byte of the frame advances the count. -/
  | stored (ho : t.opened = s.opened) (hp : s.phase = .receivingFrame) (ht : t.phase = .receivingFrame)
      (hc : t.rxCount = s.rxCount + 1) (hq : s.inQueue.length = t.inQueue.length + 1)
  /-- The receive phase is left. -/
  | left (h : s.ReceiveLeft t)

/-- A byte `b` is taken from the queue of `s`, which leaves `s'`. -/
theorem takeByte_readEffect {s s' t : State} {b : Byte} (h : takeByte b s' = .next t) (hr : s.receiving)
    (hq : s.inQueue = b :: s'.inQueue) (ho : s'.opened = s.opened) (hp' : s'.phase = s.phase) (hc : s'.rxCount = s.rxCount) :
    ReadEffect s t := by
  have hlen : s.inQueue.length = s'.inQueue.length + 1 := by simp [hq]
  have hleft : ∀ {u v : State}, u.ReceiveLeft v → u.opened = s'.opened → ReadEffect s v := fun hv hu =>
    .left { hv with sameBlock := hv.sameBlock.trans (hu.trans ho) }
  rcases hr with hp | hp
  · rw [takeByte_waitingEcho (hp'.trans hp), Host.Outcome.next.injEq] at h
    subst h
    split_ifs
    · exact .started ho hp rfl rfl hlen
    · exact .skipped ho hp (hp'.trans hp)
  · rcases takeByte_receivingFrame (hp'.trans hp) b with ⟨-, -, hs⟩ | ⟨-, -, hs⟩ | ⟨-, -, hs⟩ | ⟨-, -, hs⟩ | ⟨-, -, hs⟩ |
      ⟨-, -, hs⟩ | ⟨-, hs⟩ <;> rw [hs] at h <;> simp only [Host.Outcome.next.injEq, reduceCtorEq] at h <;> subst h
    · exact .stored ho hp (hp'.trans hp) (congrArg (· + 1) hc) hlen
    · exact hleft (State.failRx_receiveLeft _ _) rfl
    · exact .stored ho hp (hp'.trans hp) (congrArg (· + 1) hc) hlen
    · exact hleft (State.failRx_receiveLeft _ _) rfl
    · exact .stored (by simpa using ho) hp (by simpa using hp'.trans hp) (by simpa using hc) (by simpa using hlen)
    · exact hleft (finishFrame_receiveLeft _) (by simp)

theorem receiveStep_readEffect {s t : State} (hr : s.receiving) (h : receiveStep s = .next t) : ReadEffect s t := by
  rcases receiveStep_cases s with ⟨b, rest, hq, -, hs⟩ | ⟨b, rest, hq, -, -, hs⟩ | ⟨b, rest, -, -, -, hs⟩ | ⟨-, -, hs⟩ |
    ⟨-, -, hs⟩ <;> rw [hs] at h
  · exact takeByte_readEffect h hr hq rfl rfl rfl
  · exact takeByte_readEffect h hr hq rfl rfl rfl
  · obtain rfl := Host.Outcome.next.inj h
    exact .left { State.failRx_receiveLeft { s with ties := s.ties + 1 } .readTimeout with }
  · obtain rfl := Host.Outcome.next.inj h
    exact .left (s.failRx_receiveLeft _)
  · exact .waited (Host.Outcome.next.inj h).symm

/-! ## The result at the end -/

/-- A constructed block whose last operation, once it is over, has its result in `res` (10_state.md R46). -/
structure State.ResultAtEnd (s : State) : Prop where
  block : s.opened = true
  result : s.phase = .idle → ∃ r, s.res = some r

theorem State.ResultAtEnd.of_busy {s : State} (ho : s.opened = true) (hp : s.phase ≠ .idle) : s.ResultAtEnd :=
  ⟨ho, fun hi => absurd hi hp⟩

theorem State.ResultAtEnd.of_receiving {s : State} (ho : s.opened = true) (hr : s.receiving) : s.ResultAtEnd :=
  .of_busy ho (by rcases hr with hp | hp <;> simp [hp])

theorem State.ResultAtEnd.of_res {s : State} {r : Result} (ho : s.opened = true) (hr : s.res = some r) : s.ResultAtEnd :=
  ⟨ho, fun _ => ⟨r, hr⟩⟩

theorem State.ReceiveLeft.resultAtEnd {s t : State} (h : s.ReceiveLeft t) (ho : s.opened = true) : t.ResultAtEnd := by
  refine ⟨h.sameBlock.trans ho, fun hi => ?_⟩
  rcases h.outcome with hp | hp | ⟨-, hr⟩
  · simp [hp] at hi
  · simp [hp] at hi
  · exact hr

theorem ReadEffect.resultAtEnd {s t : State} (e : ReadEffect s t) (h : s.ResultAtEnd) : t.ResultAtEnd := by
  cases e with
  | waited ht => exact ht ▸ h
  | skipped ho _ ht => exact .of_busy (ho.trans h.block) (by simp [ht])
  | started ho _ ht => exact .of_busy (ho.trans h.block) (by simp [ht])
  | stored ho _ ht => exact .of_busy (ho.trans h.block) (by simp [ht])
  | left hl => exact hl.resultAtEnd h.block

/-- Whatever a step does to a running operation, `Idle` is reached with a result only. -/
theorem Effect.resultAtEnd {s t : State} (e : Effect s t) (ho : s.opened = true) (hp : s.phase ≠ .idle) :
    t.ResultAtEnd := by
  have hbusy : s.ResultAtEnd := .of_busy ho hp
  cases e with
  | same => exact hbusy
  | returned => exact { hbusy with }
  | encoded _ _ _ _ _ hi => exact absurd hi hp
  | stamped _ hi => exact absurd hi hp
  | status _ _ hi => exact absurd hi hp
  | accepted _ _ _ _ hi => exact absurd hi hp
  | breakBegun _ hi => exact absurd hi hp
  | breakEnded => exact .of_res ho rfl
  | constructed _ _ _ hn => simp [ho] at hn
  | notOpened hn => simp [ho] at hn
  | tooLarge => exact .of_res ho rfl
  | requestSent => exact .of_busy ho (by simp)
  | requestLost => exact .of_res ho rfl
  | requestDrained => exact .of_busy ho (by simp)
  | ackDrained => exact .of_res ho rfl
  | nackDrained => exact .of_res ho rfl
  | acked m => exact (s.sendAck_receiveLeft m).resultAtEnd ho
  | nacked e => exact (s.sendNack_receiveLeft e).resultAtEnd ho
  | bytesRead bytes _ _ _ _ ht =>
    exact receiveUpTo_induct (P := State.ResultAtEnd) (fun _ _ hu hr hv => (receiveStep_readEffect hr hv).resultAtEnd hu)
      _ { s with inQueue := s.inQueue ++ bytes } _ { hbusy with } ht
  | bytesQueued => exact { hbusy with }
  | readOnce _ _ hr ht => exact (receiveStep_readEffect hr ht).resultAtEnd hbusy

theorem step_resultAtEnd {s t : State} (ho : s.opened = true) (hp : s.phase ≠ .idle) (h : step s = .next t) :
    t.ResultAtEnd := by
  rcases step_effect h with ⟨m, rest, -, ⟨ms, rfl⟩ | ⟨n, rfl⟩ | e⟩ | ⟨-, e⟩
  · exact .of_busy ho hp
  · exact .of_busy ho hp
  · exact e.resultAtEnd ho hp
  · exact e.resultAtEnd ho hp

/-- Settles O56: `res` is empty while an operation runs by the invariant, before the step and after it; the result at the end is
`step_resultAtEnd`. -/
theorem oneResultAtTheEnd : Obligations.OneResultAtTheEnd := by
  intro s t hs ho hp ht
  have hend := step_resultAtEnd ho hp ht
  exact ⟨hs.noResultYet ho hp, (invPreserved s t hs ht).noResultYet hend.block, hend.result⟩

/-! ## The run of `rx_count` -/

/-- `ReceivingFrame` is entered from `WaitingEcho` only, and left only by a read (42_link_protocol.md R180). -/
theorem Effect.receiving_of_receivingFrame {s t : State} (e : Effect s t) (ht : t.phase = .receivingFrame) : s.receiving := by
  cases e with
  | same => exact .inr ht
  | returned => exact .inr ht
  | encoded => exact .inr ht
  | stamped => exact .inr ht
  | status => exact .inr ht
  | accepted => simp at ht
  | breakBegun => simp at ht
  | breakEnded => simp [State.returnOk] at ht
  | constructed => simp at ht
  | notOpened => exact .inr ht
  | tooLarge => simp [State.raise] at ht
  | requestSent => simp at ht
  | requestLost => simp [State.raise] at ht
  | requestDrained => simp at ht
  | ackDrained => simp [State.complete] at ht
  | nackDrained => simp [State.raise] at ht
  | acked m => exact absurd ht (s.sendAck_receiveLeft m).not_receivingFrame
  | nacked e => exact absurd ht (s.sendNack_receiveLeft e).not_receivingFrame
  | bytesRead _ _ _ _ hr => exact hr
  | bytesQueued => exact .inr ht
  | readOnce _ _ hr => exact hr

/-- In `ReceivingFrame` the count has gone up by the bytes that left the input queue, one or none. -/
theorem ReadEffect.count {s t : State} (e : ReadEffect s t) (hz : s.phase = .waitingEcho → s.rxCount = 0)
    (ht : t.phase = .receivingFrame) :
    t.rxCount + t.inQueue.length = s.rxCount + s.inQueue.length ∧ s.rxCount ≤ t.rxCount ∧ t.rxCount ≤ s.rxCount + 1 ∧
      (s.phase ≠ .receivingFrame → t.rxCount = 1) := by
  cases e with
  | waited hs => subst hs; exact ⟨rfl, le_rfl, Nat.le_succ _, fun hn => absurd ht hn⟩
  | skipped _ _ hp => simp [hp] at ht
  | started _ hp _ hc hq =>
    have h0 := hz hp
    exact ⟨by omega, by omega, by omega, fun _ => hc⟩
  | stored _ hp _ hc hq => exact ⟨by omega, by omega, by omega, fun hn => absurd hp hn⟩
  | left hl => exact absurd ht hl.not_receivingFrame

/-- Settles O60: outside `ReceivingFrame`, and for the bounds in it, by the invariant after the step; the count itself by what one
read leaves (`ReadEffect`). -/
theorem receiveCountRuns : Obligations.ReceiveCountRuns := by
  intro s t hs ho hscript ht
  have hinv := invPreserved s t hs ht
  refine ⟨hinv.notCounting, fun hp => ?_⟩
  rw [step_of_script_nil hscript] at ht
  have hr : s.receiving := (blockMove_effect ht).receiving_of_receivingFrame hp
  have hread : ReadEffect s t := receiveStep_readEffect hr (blockMove_receiving ho hr ▸ ht)
  have hzero : s.phase = .waitingEcho → s.rxCount = 0 := fun hw => hs.notCounting (by simp [hw]) (by simp [hw])
  obtain ⟨hsum, hle, hone, hfirst⟩ := hread.count hzero hp
  obtain ⟨hstarted, -⟩ := hinv.framed hp
  exact ⟨hsum, hle, hone, hstarted, hinv.rxCountBound, hfirst⟩

end Sys2Proof.Machine
end

section
/-! SUPPORT. `ConfigurationConstant` and `OutputInOrder`: on a constructed block every `Effect` leaves the configuration, the clock and
the line alone and writes the output queue only at its end (`State.OnlyQueues`); of the other two things a step can be, time
moves the clock and the drain moves bytes from the queue to the line. -/

namespace Sys2Proof.Machine

/-! ## What a constructed block does to its output -/

/-- What is fixed at construction (20_memory.md R72, 10_state.md R22, R37). -/
def State.configuration (s : State) : Byte × Baud × Bool × Params × Option OpenArgs :=
  (s.addr, s.baud, s.opened, s.params, s.port)

theorem State.configuration_eq_iff {s t : State} :
    t.configuration = s.configuration ↔
      t.addr = s.addr ∧ t.baud = s.baud ∧ t.opened = s.opened ∧ t.params = s.params ∧ t.port = s.port := by
  simp [State.configuration]

/-- From `s` to `t` the block has at most queued bytes behind those that wait (20_memory.md R57): the clock and the line belong to
the environment, the configuration to `construct`. -/
structure State.OnlyQueues (s t : State) : Prop where
  configuration : t.configuration = s.configuration
  now : t.now = s.now
  line : t.line = s.line
  queued : s.outQueue <+: t.outQueue

/-- A change of other registers, which queues nothing. -/
theorem State.OnlyQueues.of_unwritten {s t : State} (hc : t.configuration = s.configuration := by rfl)
    (hn : t.now = s.now := by rfl) (hl : t.line = s.line := by rfl) (hq : t.outQueue = s.outQueue := by rfl) :
    s.OnlyQueues t :=
  ⟨hc, hn, hl, hq ▸ List.prefix_rfl⟩

theorem State.OnlyQueues.trans {s t u : State} (h : s.OnlyQueues t) (h' : t.OnlyQueues u) : s.OnlyQueues u :=
  ⟨h'.configuration.trans h.configuration, h'.now.trans h.now, h'.line.trans h.line, h.queued.trans h'.queued⟩

/-! ## Answers to a frame -/

theorem State.sendNack_onlyQueues (s : State) (e : Err) : s.OnlyQueues (s.sendNack e) := by
  rcases s.sendNack_cases e with ⟨-, h⟩ | ⟨-, k, h⟩ <;> rw [h] <;>
    exact ⟨rfl, rfl, rfl, List.prefix_append ..⟩

theorem State.sendAck_onlyQueues (s : State) (m : List Byte) : s.OnlyQueues (s.sendAck m) := by
  rcases s.sendAck_cases m with ⟨-, h⟩ | ⟨-, k, h⟩ <;> rw [h] <;>
    exact ⟨rfl, rfl, rfl, List.prefix_append ..⟩

theorem State.failRx_onlyQueues (s : State) (e : Err) : s.OnlyQueues (s.failRx e) := by
  rcases s.failRx_cases e with ⟨-, -, h⟩ | ⟨-, h⟩ <;> rw [h]
  · exact .of_unwritten
  · exact .trans .of_unwritten ((s.setPendErr e).sendNack_onlyQueues e)

theorem finishFrame_onlyQueues (s : State) : s.OnlyQueues (finishFrame s) := by
  rcases finishFrame_cases s with ⟨-, h⟩ | ⟨-, m, -, h⟩ | ⟨-, -, h⟩ <;> rw [h]
  · exact s.failRx_onlyQueues _
  · exact s.sendAck_onlyQueues m
  · exact .of_unwritten

/-! ## Reads -/

theorem State.storeBody_onlyQueues (s : State) (b : Byte) : s.OnlyQueues (s.storeBody b) := by
  rcases s.storeBody_cases b with ⟨-, h⟩ | ⟨-, h⟩ <;> rw [h] <;> exact .of_unwritten

theorem takeByte_waitingEcho_onlyQueues {s t : State} {b : Byte} (hp : s.phase = .waitingEcho)
    (h : takeByte b s = .next t) : s.OnlyQueues t := by
  rw [takeByte_waitingEcho hp, Host.Outcome.next.injEq] at h
  subst h
  split_ifs <;> exact .of_unwritten

theorem takeByte_receivingFrame_onlyQueues {s t : State} {b : Byte} (hp : s.phase = .receivingFrame)
    (h : takeByte b s = .next t) : s.OnlyQueues t := by
  rcases takeByte_receivingFrame hp b with ⟨-, -, hs⟩ | ⟨-, -, hs⟩ | ⟨-, -, hs⟩ | ⟨-, -, hs⟩ | ⟨-, -, hs⟩ | ⟨-, -, hs⟩ |
    ⟨-, hs⟩ <;> rw [hs] at h <;> simp only [Host.Outcome.next.injEq, reduceCtorEq] at h <;> subst h
  · exact .of_unwritten
  · exact .trans .of_unwritten (State.failRx_onlyQueues _ _)
  · exact .of_unwritten
  · exact .trans .of_unwritten (State.failRx_onlyQueues _ _)
  · exact s.storeBody_onlyQueues b
  · exact (s.storeBody_onlyQueues b).trans (finishFrame_onlyQueues _)

theorem takeByte_onlyQueues {s t : State} {b : Byte} (hr : s.receiving) (h : takeByte b s = .next t) : s.OnlyQueues t := by
  rcases hr with hp | hp
  · exact takeByte_waitingEcho_onlyQueues hp h
  · exact takeByte_receivingFrame_onlyQueues hp h

theorem receiveStep_onlyQueues {s t : State} (hr : s.receiving) (h : receiveStep s = .next t) : s.OnlyQueues t := by
  rcases receiveStep_cases s with ⟨b, rest, -, -, hs⟩ | ⟨b, rest, -, -, -, hs⟩ | ⟨b, rest, -, -, -, hs⟩ | ⟨-, -, hs⟩ |
    ⟨-, -, hs⟩ <;> rw [hs] at h
  · exact .trans .of_unwritten (takeByte_onlyQueues (s := s.takeInput rest) hr h)
  · exact .trans .of_unwritten
      (takeByte_onlyQueues (s := State.takeInput { s with ties := s.ties + 1 } rest) hr h)
  · obtain rfl := Host.Outcome.next.inj h
    exact .trans .of_unwritten (State.failRx_onlyQueues { s with ties := s.ties + 1 } .readTimeout)
  · obtain rfl := Host.Outcome.next.inj h
    exact s.failRx_onlyQueues _
  · obtain rfl := Host.Outcome.next.inj h
    exact .of_unwritten

theorem receiveUpTo_onlyQueues {n : Nat} {s t : State} (h : receiveUpTo n s = .next t) : s.OnlyQueues t :=
  receiveUpTo_induct (P := s.OnlyQueues) (fun _ _ hu hr hs => hu.trans (receiveStep_onlyQueues hr hs)) n s t .of_unwritten h

/-! ## Every effect, and the step -/

/-- `construct` alone sets the configuration and empties the output queue, and a constructed block does not run it (10_state.md R41). -/
theorem Effect.onlyQueues {s t : State} (e : Effect s t) (ho : s.opened = true) : s.OnlyQueues t := by
  cases e with
  | same => exact .of_unwritten
  | returned => exact .of_unwritten
  | encoded => exact .of_unwritten
  | stamped => exact .of_unwritten
  | status => exact .of_unwritten
  | accepted => exact .of_unwritten
  | breakBegun => exact .of_unwritten
  | breakEnded => exact .of_unwritten
  | constructed _ _ _ hn => simp [ho] at hn
  | notOpened hn => simp [ho] at hn
  | tooLarge => exact .of_unwritten
  | requestSent => exact ⟨rfl, rfl, rfl, List.prefix_append ..⟩
  | requestLost => exact ⟨rfl, rfl, rfl, List.prefix_append ..⟩
  | requestDrained => exact .of_unwritten
  | ackDrained => exact .of_unwritten
  | nackDrained => exact .of_unwritten
  | acked m => exact s.sendAck_onlyQueues m
  | nacked e => exact s.sendNack_onlyQueues e
  | bytesRead bytes _ _ _ _ h => exact .trans .of_unwritten (receiveUpTo_onlyQueues h)
  | bytesQueued => exact .of_unwritten
  | readOnce _ _ hr h => exact receiveStep_onlyQueues hr h

/-- What a step of a constructed block can do to configuration, clock and output; taking the move off the script is neither. -/
theorem step_advance_or_drain_or_onlyQueues {s t : State} (ho : s.opened = true) (h : step s = .next t) :
    (∃ rest ms, t = State.advance { s with script := rest } ms) ∨ (∃ rest n, t = State.drain { s with script := rest } n) ∨
      s.OnlyQueues t := by
  rcases step_effect h with ⟨m, rest, -, ⟨ms, rfl⟩ | ⟨n, rfl⟩ | e⟩ | ⟨-, e⟩
  · exact .inl ⟨rest, ms, rfl⟩
  · exact .inr (.inl ⟨rest, n, rfl⟩)
  · exact .inr (.inr (.trans .of_unwritten (e.onlyQueues ho)))
  · exact .inr (.inr (e.onlyQueues ho))

theorem step_configuration {s t : State} (ho : s.opened = true) (h : step s = .next t) :
    t.configuration = s.configuration := by
  rcases step_advance_or_drain_or_onlyQueues ho h with ⟨rest, ms, rfl⟩ | ⟨rest, n, rfl⟩ | hq
  · rfl
  · rfl
  · exact hq.configuration

/-- Settles O57: the registers of `State.configuration`, which a step of a constructed block keeps. -/
theorem configurationConstant : Obligations.ConfigurationConstant := by
  intro s t ho h
  obtain ⟨haddr, hbaud, hopened, hparams, hport⟩ := State.configuration_eq_iff.mp (step_configuration ho h)
  exact ⟨haddr, hbaud, hopened.trans ho, hparams, hport⟩

/-! ## The output in order -/

/-- The drain moves bytes from the head of the queue to the end of the line: together they stay what they were. -/
theorem State.drain_output (s : State) (n : Nat) : (s.drain n).line ++ (s.drain n).outQueue = s.line ++ s.outQueue := by
  simp [State.drain]

theorem State.OnlyQueues.output {s t : State} (h : s.OnlyQueues t) : s.line ++ s.outQueue <+: t.line ++ t.outQueue := by
  rw [h.line, List.prefix_append_right_inj]
  exact h.queued

/-- Settles O58: time moves the clock only; the drain extends the line by the head of the queue (`State.drain_output`); anything else
queues at the end and leaves clock and line alone (`State.OnlyQueues`). -/
theorem outputInOrder : Obligations.OutputInOrder := by
  intro s t ho h
  rcases step_advance_or_drain_or_onlyQueues ho h with ⟨rest, ms, rfl⟩ | ⟨rest, n, rfl⟩ | hq
  · exact ⟨Nat.le_add_right .., List.prefix_rfl, List.prefix_rfl⟩
  · exact ⟨le_rfl, List.prefix_append .., (State.drain_output { s with script := rest } n) ▸ List.prefix_rfl⟩
  · exact ⟨hq.now.ge, hq.line ▸ List.prefix_rfl, hq.output⟩

end Sys2Proof.Machine
end

section
/-! SUPPORT. `DecodeEncodeAgree` and `DecodeWords`: the per-instruction family `RoundTrip` put together over `Instr`, and the words of
the spec as the encodings of their instructions. -/

namespace Sys2Proof.Laws

/-- Every instruction but `getBillOptions` reads back from its own words (30_encoding.md R92). -/
theorem roundTrip : ∀ i : Instr, RoundTrip.Statement i
  | .poll => RoundTrip.poll
  | .getBillOptions => RoundTrip.getBillOptions
  | .getBillTable => RoundTrip.getBillTable
  | .info => RoundTrip.info
  | .cassetteStatus => RoundTrip.cassetteStatus
  | .stackBill => RoundTrip.stackBill
  | .returnBill => RoundTrip.returnBill
  | .resetAll => RoundTrip.resetAll
  | .construct _ _ _ => RoundTrip.construct _ _ _
  | .exchange _ _ => RoundTrip.exchange _ _
  | .reqGetStatus _ => RoundTrip.reqGetStatus _
  | .reqPoll _ => RoundTrip.reqPoll _
  | .reqStack _ => RoundTrip.reqStack _
  | .reqReturn _ => RoundTrip.reqReturn _
  | .reqExtIdent _ => RoundTrip.reqExtIdent _
  | .reqGetBillTable _ => RoundTrip.reqGetBillTable _
  | .reqRecCassetteStatus _ => RoundTrip.reqRecCassetteStatus _
  | .masterAck _ => RoundTrip.masterAck _
  | .masterNack _ => RoundTrip.masterNack _
  | .rspAck _ => RoundTrip.rspAck _
  | .rspNack _ => RoundTrip.rspNack _
  | .rspIncrementCommand _ _ => RoundTrip.rspIncrementCommand _ _
  | .rspMessage1 _ _ => RoundTrip.rspMessage1 _ _
  | .rspMessage _ _ => RoundTrip.rspMessage _ _
  | .rspBadAddress _ => RoundTrip.rspBadAddress _
  | .rspTooShort _ _ => RoundTrip.rspTooShort _ _
  | .rspBadCrc _ _ _ => RoundTrip.rspBadCrc _ _ _
  | .statusPowerUp _ => RoundTrip.statusPowerUp _
  | .statusInitialize _ => RoundTrip.statusInitialize _
  | .statusIdling _ => RoundTrip.statusIdling _
  | .statusAccepting _ => RoundTrip.statusAccepting _
  | .statusStacking _ => RoundTrip.statusStacking _
  | .statusReturning _ => RoundTrip.statusReturning _
  | .statusDisabled _ => RoundTrip.statusDisabled _
  | .statusHolding _ => RoundTrip.statusHolding _
  | .statusBusy _ => RoundTrip.statusBusy _
  | .statusRejecting _ => RoundTrip.statusRejecting _
  | .statusDispensing _ => RoundTrip.statusDispensing _
  | .statusUploading _ => RoundTrip.statusUploading _
  | .statusSettingTypeCassette _ => RoundTrip.statusSettingTypeCassette _
  | .statusDispensed _ => RoundTrip.statusDispensed _
  | .statusUnloaded _ => RoundTrip.statusUnloaded _
  | .statusInvalidBillNumber _ => RoundTrip.statusInvalidBillNumber _
  | .statusSetCassetteType _ => RoundTrip.statusSetCassetteType _
  | .statusInvalidCommand _ => RoundTrip.statusInvalidCommand _
  | .statusDropCassetteFull _ => RoundTrip.statusDropCassetteFull _
  | .statusDropCassetteRemoved _ => RoundTrip.statusDropCassetteRemoved _
  | .statusJamInAcceptor _ => RoundTrip.statusJamInAcceptor _
  | .statusJamInStacker _ => RoundTrip.statusJamInStacker _
  | .statusCheated _ => RoundTrip.statusCheated _
  | .statusEscrow _ => RoundTrip.statusEscrow _
  | .statusPacked _ => RoundTrip.statusPacked _
  | .statusReturned _ => RoundTrip.statusReturned _
  | .statusOther _ _ => RoundTrip.statusOther _ _
  | .crc16 _ => RoundTrip.crc16 _
  | .crcUpdate _ _ => RoundTrip.crcUpdate _ _
  | .encode _ _ _ => RoundTrip.encode _ _ _
  | .decodeResponse _ _ => RoundTrip.decodeResponse _ _
  | .classify _ => RoundTrip.classify _
  | .encodeResponseFrame _ _ => RoundTrip.encodeResponseFrame _ _
  | .delayBeforeRequest => RoundTrip.delayBeforeRequest
  | .waitForTransmitComplete => RoundTrip.waitForTransmitComplete
  | .resetLink => RoundTrip.resetLink
  | .decodeStatus _ => RoundTrip.decodeStatus _
  | .decodeBillOptions _ => RoundTrip.decodeBillOptions _
  | .unpack24 _ _ _ => RoundTrip.unpack24 _ _ _
  | .decodeCassetteStatus _ => RoundTrip.decodeCassetteStatus _
  | .decodeBillTable _ => RoundTrip.decodeBillTable _
  | .denom _ _ => RoundTrip.denom _ _
  | .decodeInfo _ => RoundTrip.decodeInfo _
  | .expectAck _ _ => RoundTrip.expectAck _ _

/-- On the wire the two operations are the same (44_device_controller.md R242). -/
theorem encode_getBillOptions (addr : Byte) : Sys2Proof.encode addr .getBillOptions = Sys2Proof.encode addr .poll := rfl

/-- Settles O49: `getBillOptions` has the words of `poll`, which reads back; any other instruction reads back by `roundTrip`. -/
theorem decodeEncodeAgree : Obligations.DecodeEncodeAgree := by
  intro addr inc i f bytes hw he
  by_cases hi : i = .getBillOptions
  · subst hi
    rw [encode_getBillOptions] at he
    simpa using roundTrip .poll addr inc f bytes (by simp) rfl he
  · simpa [hi] using roundTrip i addr inc f bytes hi hw he

/-- A word is read as the instruction whose encoding it is. -/
theorem decode_of_encode {inc addr : Byte} {i : Instr} {f : Format} {bytes : List Byte}
    (he : Sys2Proof.encode addr i = some (f, bytes)) (hw : WellFormed inc i := by decide)
    (hg : i ≠ .getBillOptions := by decide) : Sys2Proof.decode inc f bytes = .ok i :=
  roundTrip i addr inc f bytes hg hw he

/-- Settles O50: an accepted word is the encoding of its instruction by a block of address 0x03, the CRC computed; a rejected one
fails at its first byte, at its CRC or at its code. -/
theorem decodeWords : Obligations.DecodeWords := by
  have reads {i : Instr} {f : Format} {bytes : List Byte} := @decode_of_encode 0xFF#8 0x03#8 i f bytes
  refine ⟨reads ?_, reads ?_, reads ?_, reads ?_, reads ?_, reads ?_, reads ?_, reads ?_, reads ?_, reads ?_, reads ?_, reads ?_,
    ?notSync, ?badCrc, ?unknownCommand⟩ <;> decide

end Sys2Proof.Laws
end

section
/-! SUPPORT. `IllegalResponses`: bytes that come in time to a block hunting for `SYNC` are stored one after another, the state in
between being `State.midFrame` of the bytes stored so far; a whole frame comes to `finishFrame`, a wrong second or third byte to
`State.failRx`. -/

namespace Sys2Proof.Machine

/-! ## A frame in the buffer -/

theorem Memory.writeBytes_concat (m : Memory) (off : Nat) (bs : List Byte) (b : Byte) :
    m.writeBytes off (bs ++ [b]) = (m.writeBytes off bs).write (off + bs.length) b := by
  induction bs generalizing m off with
  | nil => rfl
  | cons x bs ih => simp [Memory.writeBytes, ih, Nat.add_assoc, Nat.add_comm 1]

/-- A frame stored from offset 0 upward is there, and the rest of the buffer is unchanged. -/
theorem Memory.loaded_writeBytes {m : Memory} (hm : m.wf) {f : List Byte} (hf : f.length ≤ Config.maxFrame) :
    m.loaded f (m.writeBytes 0 f) :=
  ⟨Memory.wf_writeBytes hm (by omega), Memory.readBytes_writeBytes hm.1 0 f, fun _ ha =>
    Memory.read_writeBytes_other m f (.inr (by omega))⟩

/-! ## The state in the middle of a frame -/

/-- `s` with the bytes `pre` of a frame read and the bytes `rest` still in the input queue: `len` and `c` are what `rx_len` and `crc`
hold by then (42_link_protocol.md R168 to R172). -/
def State.midFrame (s : State) (len : Byte) (c : Word16) (pre rest : List Byte) : State :=
  { s with
    rxbuf := s.rxbuf.writeBytes 0 pre
    rxCount := pre.length
    rxLen := len
    crc := c
    rxDeadline := s.nextDeadline
    phase := .receivingFrame
    inQueue := rest }

section
variable {s : State} {len : Byte} {c : Word16} {pre rest : List Byte} {b : Byte}

@[simp] theorem State.midFrame_rxCount : (s.midFrame len c pre rest).rxCount = pre.length := rfl
@[simp] theorem State.midFrame_rxLen : (s.midFrame len c pre rest).rxLen = len := rfl

theorem State.inTime_midFrame (h : s.inTime) : (s.midFrame len c pre rest).inTime := by
  unfold State.inTime at h ⊢
  cases hs : s.params.rxTimeoutScope <;> simp [State.midFrame, State.nextDeadline, hs, h]

/-- The byte taken leaves the queue; its deadline is the one that stands already (41_transport_governor.md R152). -/
theorem State.takeInput_midFrame :
    (s.midFrame len c pre (b :: rest)).takeInput rest = s.midFrame len c pre rest := by
  cases h : s.params.rxTimeoutScope <;> simp [State.takeInput, State.midFrame, State.nextDeadline, h]

/-- The frame in the buffer once it is whole. -/
theorem State.rxFrame_midFrame (hm : s.rxbuf.wf) (hl : pre.length = len.toNat) :
    (s.midFrame len c pre rest).rxFrame = pre := by
  simpa [State.rxFrame, State.midFrame, hl] using Memory.readBytes_writeBytes hm.1 0 pre

/-- The whole frame with body `data` and CRC field `carried` has been read, its address `ADDR`. -/
def State.frameRead (s : State) (data : List Byte) (carried : Word16) : State :=
  s.midFrame (BitVec.ofNat 8 (data.length + 5)) (crc16 (responseBody s.addr data)) (responseFrameCarrying s.addr data carried) []

/-- `LEN` of a slave frame fits its byte (40_frame_codec.md R126, R127). -/
theorem toNat_responseLength {data : List Byte} (h : data.length ≤ 250) :
    (BitVec.ofNat 8 (data.length + 5)).toNat = data.length + 5 := by
  rw [BitVec.toNat_ofNat]
  omega

theorem State.rxFrame_frameRead (hm : s.rxbuf.wf) {data : List Byte} (h : data.length ≤ 250) (carried : Word16) :
    (s.frameRead data carried).rxFrame = responseFrameCarrying s.addr data carried :=
  State.rxFrame_midFrame hm (by rw [length_responseFrameCarrying, toNat_responseLength h])

/-- A body byte below `rx_len - 2` is stored and runs through the CRC (42_link_protocol.md R172). -/
theorem State.storeBody_midFrame_covered (h : pre.length < len.toNat - 2) :
    (s.midFrame len c pre rest).storeBody b = s.midFrame len (crcUpdate c b) (pre ++ [b]) rest := by
  rcases (s.midFrame len c pre rest).storeBody_cases b with ⟨-, hs⟩ | ⟨hout, -⟩
  · rw [hs]
    simp [State.runCrc, State.storeRx, State.midFrame, Memory.writeBytes_concat]
  · exact absurd h (Nat.not_lt.mpr hout)

/-- A byte of the CRC field is stored only. -/
theorem State.storeBody_midFrame_crcField (h : len.toNat - 2 ≤ pre.length) :
    (s.midFrame len c pre rest).storeBody b = s.midFrame len c (pre ++ [b]) rest := by
  rcases (s.midFrame len c pre rest).storeBody_cases b with ⟨hin, -⟩ | ⟨-, hs⟩
  · exact absurd hin (Nat.not_lt.mpr h)
  · rw [hs]
    simp [State.storeRx, State.midFrame, Memory.writeBytes_concat]

/-! ## One byte in the middle of a frame -/

/-- The next byte is taken at once. -/
theorem receiveUpTo_midFrame (h : s.inTime) {t : State} (ht : takeByte b (s.midFrame len c pre rest) = .next t) (n : Nat) :
    receiveUpTo (n + 1) (s.midFrame len c pre (b :: rest)) = receiveUpTo n t := by
  refine receiveUpTo_next (.inr rfl) ?_ n
  rw [receiveStep_inTime rfl (State.inTime_midFrame h), State.takeInput_midFrame, ht]

variable {x y : Byte}

theorem takeByte_ownAddress :
    takeByte s.addr (s.midFrame len (crc16 [x]) [x] rest) = .next (s.midFrame len (crc16 [x, s.addr]) [x, s.addr] rest) := by
  rw [show crc16 [x, s.addr] = _ from crc16_concat [x] s.addr]
  exact if_pos rfl

theorem takeByte_wrongAddress (h : b ≠ s.addr) :
    takeByte b (s.midFrame len (crc16 [x]) [x] rest) =
      .next ((s.midFrame len (crc16 [x, b]) [x, b] rest).failRx (.addressMismatch b)) := by
  rw [show crc16 [x, b] = _ from crc16_concat [x] b]
  exact if_neg h

theorem takeByte_length (h : Config.minLen ≤ b.toNat) :
    takeByte b (s.midFrame len (crc16 [x, y]) [x, y] rest) = .next (s.midFrame b (crc16 [x, y, b]) [x, y, b] rest) := by
  rw [show crc16 [x, y, b] = _ from crc16_concat [x, y] b]
  exact if_neg (Nat.not_lt.mpr h)

theorem takeByte_shortLength (h : b.toNat < Config.minLen) :
    takeByte b (s.midFrame len (crc16 [x, y]) [x, y] rest) =
      .next ((s.midFrame b (crc16 [x, y, b]) [x, y, b] rest).failRx (.frameTooShort b.toNat)) := by
  rw [show crc16 [x, y, b] = _ from crc16_concat [x, y] b]
  exact if_pos h

/-- From the fourth byte on a byte is stored, and the last one makes the frame whole (R172, R173). -/
theorem takeByte_body (h3 : 3 ≤ pre.length) (hl : pre.length < len.toNat) :
    takeByte b (s.midFrame len c pre rest) =
      .next (if pre.length + 1 = len.toNat then finishFrame ((s.midFrame len c pre rest).storeBody b)
        else (s.midFrame len c pre rest).storeBody b) := by
  rcases takeByte_receivingFrame (s := s.midFrame len c pre rest) rfl b with ⟨h, -⟩ | ⟨h, -⟩ | ⟨h, -⟩ | ⟨h, -⟩ | ⟨-, h, ht⟩ |
    ⟨-, h, ht⟩ | ⟨h, -⟩ <;> simp only [State.midFrame_rxCount, State.midFrame_rxLen] at h
  case inr.inr.inr.inr.inl => rw [ht, if_neg (by omega)]
  case inr.inr.inr.inr.inr.inl => rw [ht, if_pos h]
  all_goals omega

/-! ## Many bytes in the middle of a frame -/

/-- Body bytes up to offset `rx_len - 2` are stored, with `crc` the CRC of all bytes so far (R172). -/
theorem receiveUpTo_body (h : s.inTime) (xs : List Byte) (n : Nat) (h3 : 3 ≤ pre.length)
    (hl : pre.length + xs.length + 2 ≤ len.toNat) :
    receiveUpTo (xs.length + n) (s.midFrame len (crc16 pre) pre (xs ++ rest)) =
      receiveUpTo n (s.midFrame len (crc16 (pre ++ xs)) (pre ++ xs) rest) := by
  induction xs generalizing pre with
  | nil => simp
  | cons b xs ih =>
    simp only [List.length_cons] at hl
    have hstep : takeByte b (s.midFrame len (crc16 pre) pre (xs ++ rest)) =
        .next (s.midFrame len (crc16 (pre ++ [b])) (pre ++ [b]) (xs ++ rest)) := by
      rw [takeByte_body h3 (by omega), if_neg (by omega), State.storeBody_midFrame_covered (by omega), crc16_concat]
    rw [List.length_cons, Nat.add_right_comm, List.cons_append, receiveUpTo_midFrame h hstep,
      ih (by simp; omega) (by simp; omega), List.append_assoc, List.singleton_append]

/-- The two bytes of the CRC field are stored and the frame is whole (R172, R173). -/
theorem receiveUpTo_crcField (h : s.inTime) (h3 : 3 ≤ pre.length) (hl : pre.length + 2 = len.toNat) (x y : Byte) :
    receiveUpTo 2 (s.midFrame len c pre [x, y]) = .next (finishFrame (s.midFrame len c (pre ++ [x, y]) [])) := by
  have hx : takeByte x (s.midFrame len c pre [y]) = .next (s.midFrame len c (pre ++ [x]) [y]) := by
    rw [takeByte_body h3 (by omega), if_neg (by omega), State.storeBody_midFrame_crcField (by omega)]
  have hy : takeByte y (s.midFrame len c (pre ++ [x]) []) = .next (finishFrame (s.midFrame len c (pre ++ [x, y]) [])) := by
    have hlen : (pre ++ [x]).length = pre.length + 1 := by simp
    rw [takeByte_body (by omega) (by omega), if_pos (by omega), State.storeBody_midFrame_crcField (by omega),
      List.append_assoc, List.singleton_append]
  rw [receiveUpTo_midFrame h hx, receiveUpTo_midFrame h hy, receiveUpTo_zero]

end

/-! ## Bytes of the slave that come to a hunting block -/

/-- `SYNC` ends the hunt (R168). -/
theorem receiveUpTo_sync {s : State} {rest : List Byte} (hp : s.phase = .waitingEcho) (ht : s.inTime)
    (hq : s.inQueue = Config.sync :: rest) (n : Nat) :
    receiveUpTo (n + 1) s = receiveUpTo n (s.takeInput rest).syncSeen :=
  receiveUpTo_next (.inl hp) ((receiveStep_inTime hq ht).trans (takeByte_waitingEcho (s := s.takeInput rest) hp _)) n

/-- Once a receive has failed nothing more is read. -/
theorem receiveUpTo_failRx (n : Nat) (s : State) (e : Err) : receiveUpTo n (s.failRx e) = .next (s.failRx e) := by
  refine receiveUpTo_stop ?_ n
  rcases (s.failRx_receiveLeft e).outcome with hp | hp | ⟨hp, -⟩ <;> simp [State.receiving, hp]

section
variable {s : State} (h : s.hunts)
include h

/-- `SYNC` is read and the frame begun (R168). -/
theorem State.hunts.receiveBytes_sync (rest : List Byte) :
    receiveBytes (Config.sync :: rest) s =
      receiveUpTo rest.length (s.midFrame s.rxLen (crc16 [Config.sync]) [Config.sync] rest) := by
  have hbytes : receiveBytes (Config.sync :: rest) s =
      receiveUpTo (rest.length + 1) { s with inQueue := Config.sync :: rest } := by
    rcases receiveBytes_cases (Config.sync :: rest) s with ⟨ho, -⟩ | ⟨-, -, hb⟩ | ⟨-, hr, -⟩
    · simp [h.block] at ho
    · simpa [h.noStale] using hb
    · exact absurd (.inl h.hunting) hr
  rw [hbytes, receiveUpTo_sync (by exact h.hunting) (by exact h.early) rfl]
  rfl

/-- A second byte that is not `ADDR` fails the frame; the bytes after it stay in the input queue (R170). -/
theorem State.hunts.receiveBytes_wrongAddress {x : Byte} (hx : x ≠ s.addr) (rest : List Byte) :
    receiveBytes (Config.sync :: x :: rest) s =
      .next ((s.midFrame s.rxLen (crc16 [Config.sync, x]) [Config.sync, x] rest).failRx (.addressMismatch x)) := by
  rw [h.receiveBytes_sync, List.length_cons, receiveUpTo_midFrame h.early (takeByte_wrongAddress hx), receiveUpTo_failRx]

theorem State.hunts.receiveBytes_ownAddress (rest : List Byte) :
    receiveBytes (Config.sync :: s.addr :: rest) s =
      receiveUpTo rest.length (s.midFrame s.rxLen (crc16 [Config.sync, s.addr]) [Config.sync, s.addr] rest) := by
  rw [h.receiveBytes_sync, List.length_cons, receiveUpTo_midFrame h.early takeByte_ownAddress]

/-- A declared length below 6 fails the frame at the third byte (R171). -/
theorem State.hunts.receiveBytes_shortLength {n : Byte} (hn : n.toNat < Config.minLen) (rest : List Byte) :
    receiveBytes (Config.sync :: s.addr :: n :: rest) s =
      .next ((s.midFrame n (crc16 [Config.sync, s.addr, n]) [Config.sync, s.addr, n] rest).failRx
        (.frameTooShort n.toNat)) := by
  rw [h.receiveBytes_ownAddress, List.length_cons, receiveUpTo_midFrame h.early (takeByte_shortLength hn),
    receiveUpTo_failRx]

/-- A whole frame is read to its last byte, with `crc` the CRC of the bytes before the CRC field (R172, R173). -/
theorem State.hunts.receiveBytes_wholeFrame {data : List Byte} (h1 : 1 ≤ data.length) (h250 : data.length ≤ 250)
    (carried : Word16) :
    receiveBytes (responseFrameCarrying s.addr data carried) s =
      .next (finishFrame (s.frameRead data carried)) := by
  have hlen := toNat_responseLength h250
  have hmin : Config.minLen ≤ (BitVec.ofNat 8 (data.length + 5)).toNat := by
    simp only [Config.minLen]; omega
  rw [Laws.responseFrameCarrying_bytes, h.receiveBytes_ownAddress, List.length_cons,
    receiveUpTo_midFrame h.early (takeByte_length hmin), List.length_append,
    receiveUpTo_body h.early data _ (by simp) (by simp; omega)]
  exact receiveUpTo_crcField h.early (by simp) (by simp; omega) _ _

/-- A frame from `ADDR` that carries another number than its CRC fails at its last byte (R173). -/
theorem State.hunts.receiveBytes_badCrc {data : List Byte} (h1 : 1 ≤ data.length) (h250 : data.length ≤ 250)
    {carried : Word16} (hc : carried ≠ crc16 (responseBody s.addr data)) :
    receiveBytes (responseFrameCarrying s.addr data carried) s =
      .next ((s.frameRead data carried).failRx
          (.integrityError (crc16 (responseBody s.addr data)) carried)) := by
  have hframe : (s.frameRead data carried).rxFrame = responseFrameCarrying s.addr data carried :=
    State.rxFrame_frameRead h.rxForm h250 carried
  rw [h.receiveBytes_wholeFrame h1 h250]
  rcases finishFrame_cases (s.frameRead data carried) with ⟨-, hf⟩ | ⟨hf, -⟩ | ⟨hf, -⟩ <;>
    rw [hframe, protectedPart_carrying, carriedCrc_carrying] at hf
  · rw [hf]
  · exact absurd hf.symm hc
  · exact absurd hf.symm hc

/-- With no byte left in the queue the state is `s` but for the registers of the receive phase. -/
theorem State.hunts.midFrame_all (len : Byte) (c : Word16) (f : List Byte) :
    s.midFrame len c f [] = { s with
      rxbuf := s.rxbuf.writeBytes 0 f, rxCount := f.length, rxLen := len, crc := c, rxDeadline := s.nextDeadline
      phase := .receivingFrame } := by
  simp only [State.midFrame, h.noStale]

end

/-- Settles O44: each class of bytes is read up to the byte that shows the error (`State.hunts.receiveBytes_wrongAddress`,
`State.hunts.receiveBytes_shortLength`, `State.hunts.receiveBytes_badCrc`), and what is stored is the bytes read. -/
theorem illegalResponses : Obligations.IllegalResponses := by
  refine fun s h => ⟨fun x hx => ?address, fun n hn => ?length, fun data carried h1 h250 => ?crc⟩
  case address =>
    refine ⟨_, Memory.loaded_writeBytes h.rxForm (by simp [Config.maxFrame]), ?_⟩
    exact (h.receiveBytes_wrongAddress hx []).trans (by rw [h.midFrame_all]; rfl)
  case length =>
    refine ⟨_, Memory.loaded_writeBytes h.rxForm (by simp [Config.maxFrame]), ?_⟩
    exact (h.receiveBytes_shortLength hn []).trans (by rw [h.midFrame_all]; rfl)
  case crc =>
    intro body hc
    refine ⟨_, Memory.loaded_writeBytes h.rxForm (by simp [body, Config.maxFrame]; omega), ?_⟩
    refine (h.receiveBytes_badCrc h1 h250 hc).trans ?_
    rw [State.frameRead, h.midFrame_all, length_responseFrameCarrying]
    rfl

end Sys2Proof.Machine
end

section
/-! SUPPORT. `RequestFrameFormat`: a sealed frame by its offsets, the body first and the two bytes of the CRC after it. -/

namespace Sys2Proof.Machine

/-- The offsets before the CRC field hold the body. -/
theorem getD_sealFrame_body (body : List Byte) {k : Nat} (h : k < body.length) :
    (sealFrame body).getD k 0 = body.getD k 0 :=
  List.getD_append _ _ _ _ h

/-- The last two offsets hold the CRC of the bytes before them, low byte first (20_memory.md R63). -/
theorem getD_sealFrame_crc (body : List Byte) :
    (sealFrame body).getD body.length 0 = lowByte (crc16 body) ∧
      (sealFrame body).getD (body.length + 1) 0 = highByte (crc16 body) := by
  simp [sealFrame, crcBytes, List.getD_eq_getElem?_getD]

/-- The payload lies at the offsets from 4 on (30_encoding.md R87). -/
theorem getD_requestBody_payload (a c : Byte) (p : List Byte) (k : Nat) :
    (requestBody a c p).getD (k + 4) 0 = p.getD k 0 := by
  simp [requestBody]

/-- Settles O6: the four bytes of the head by evaluation, the payload and the CRC field by their offsets in the sealed frame. -/
theorem requestFrameFormat : Obligations.RequestFrameFormat := by
  intro a c p hp f
  have hlen : f.length = p.length + 6 := length_requestFrame a c p
  have hbody : f.take (f.length - 2) = requestBody a c p := protectedPart_sealFrame _
  have hpayload (k : Nat) (hk : k < p.length) : f.getD (k + 4) 0 = p.getD k 0 :=
    (getD_sealFrame_body _ (by simpa using hk)).trans (getD_requestBody_payload a c p k)
  obtain ⟨hlow, hhigh⟩ := getD_sealFrame_crc (requestBody a c p)
  rw [length_requestBody] at hlow hhigh
  refine ⟨hlen, by omega, by omega, rfl, rfl, ?length, rfl, hpayload, ?low, ?high⟩
  case length =>
    change (BitVec.ofNat 8 (p.length + 6)).toNat = f.length
    rw [hlen, BitVec.toNat_ofNat]
    omega
  case low => rw [hbody, hlen]; exact hlow
  case high => rw [hbody, hlen]; exact hhigh

end Sys2Proof.Machine
end

section
/-! SUPPORT. `StatusRows` and `DecoderByOperation`: what is decoded, and by which decoder. -/

namespace Sys2Proof.Machine

/-- In a ready block a status row decodes the body that its code starts into `res` (43_response_decoder.md R206, assumption log 16). -/
theorem exec_statusRow_ready {s : State} (hs : s.ready) {i : Instr} {code : Byte} {more : List Byte} {r : Result}
    (hi : exec i s = decodeStatusRow code more s) (hr : statusOf code more = r) :
    exec i s = .next { s with res := some r } := by
  obtain ⟨ho, hp⟩ := hs
  rw [hi, decodeStatusRow, State.whenIdle_idle _ ho hp, hr]
  rfl

/-- A code without a name has no case of its own in `decodeStatus` (R203, R204). -/
theorem statusOf_unnamed {c : Byte} (hc : c ∉ namedStatusCodes) (more : List Byte) :
    statusOf c more = .ok (.status (.other c)) := by
  simp only [namedStatusCodes, List.mem_cons, List.not_mem_nil, or_false, not_or] at hc
  simp only [statusOf, hc, if_false]

/-- Settles O13: each row is `decodeStatusRow` of its code, which `State.whenIdle` admits, and `statusOf` gives its result. -/
theorem statusRows : Obligations.StatusRows := by
  refine ⟨fun s more c row hrow => ?_, fun s more hs => ?_⟩
  · obtain ⟨code, hcode⟩ : ∃ code, exec (row more) s = decodeStatusRow code more s := by
      fin_cases hrow <;> exact ⟨_, rfl⟩
    rw [hcode, decodeStatusRow]
    rcases s.whenIdle_cases (.next (s.setRes (statusOf code more))) with ⟨ho, h⟩ | ⟨ho, hp, h⟩ | ⟨ho, hp, -⟩
    · simp [ho, h]
    · simp [ho, h]
    · simp [ho, hp]
  · have row {i code body r} := @exec_statusRow_ready s hs i code body r
    exact ⟨row rfl rfl, row rfl rfl, row rfl rfl, row rfl rfl, row rfl rfl, row rfl rfl, row rfl rfl, row rfl rfl, row rfl rfl,
      row rfl rfl, row rfl rfl, row rfl rfl, row rfl rfl, row rfl rfl, row rfl rfl, row rfl rfl, row rfl rfl, row rfl rfl,
      row rfl rfl, row rfl rfl, row rfl rfl, row rfl rfl, row rfl rfl, row rfl rfl, fun _ => row rfl rfl, row rfl rfl,
      row rfl rfl, fun c hc => row rfl (statusOf_unnamed hc more)⟩

/-- Settles O21: `decodeFor` and the decoder's own row call the same function of the response. -/
theorem decoderByOperation : Obligations.DecoderByOperation := by
  intro s r
  exact ⟨rfl, rfl, rfl, rfl, rfl, rfl, rfl, rfl⟩

end Sys2Proof.Machine
end

section
/-! SUPPORT. `CrcRunningForm`, `CrcEquivalentForms`, `CrcLaws` and `CrcFunctions`: one iteration of the register is linear over
XOR and loses nothing, so a byte list keeps every difference of the register it starts from; on low bits that are all 0 the
iterations are plain shifts, from which the split form and the residue of the CRC field follow. -/

namespace Sys2Proof.Machine

/-! ## One iteration and several -/

theorem crcShift_of_low_true {c : Word16} (h : c.getLsbD 0 = true) : crcShift c = (c >>> 1) ^^^ Config.crcPoly := if_pos h

theorem crcShift_of_low_false {c : Word16} (h : c.getLsbD 0 = false) : crcShift c = c >>> 1 :=
  if_neg (Bool.not_eq_true _ ▸ h)

/-- The bit tested decides whether the constant enters; the shift is the same. -/
theorem crcShift_eq (c : Word16) : crcShift c = (c >>> 1) ^^^ bif c.getLsbD 0 then Config.crcPoly else 0#16 := by
  cases h : c.getLsbD 0 with
  | true => rw [crcShift_of_low_true h, cond_true]
  | false => rw [crcShift_of_low_false h, cond_false, BitVec.xor_zero]

theorem crcShift_xor (c d : Word16) : crcShift (c ^^^ d) = crcShift c ^^^ crcShift d := by
  have hpoly (x y : Bool) (p : Word16) : (bif x ^^ y then p else 0#16) = (bif x then p else 0#16) ^^^ bif y then p else 0#16 := by
    cases x <;> cases y <;> simp
  rw [crcShift_eq, crcShift_eq c, crcShift_eq d, BitVec.ushiftRight_xor_distrib, BitVec.getLsbD_xor, hpoly]
  ac_rfl

/-- The constant has bit 15, where the shift brings in a zero: a register whose bit 0 was tested 1 does not come to zero. -/
theorem crcShift_eq_zero_iff {c : Word16} : crcShift c = 0#16 ↔ c = 0#16 := by
  refine ⟨fun h => ?_, fun h => by rw [h]; rfl⟩
  cases hc : c.getLsbD 0 with
  | true =>
    rw [crcShift_of_low_true hc, BitVec.xor_eq_zero_iff] at h
    have htop : (c >>> 1).getLsbD 15 = true := congrArg (·.getLsbD 15) h
    simp at htop
  | false =>
    rw [crcShift_of_low_false hc] at h
    refine BitVec.eq_of_getLsbD_eq fun i _ => ?_
    cases i with
    | zero => simpa using hc
    | succ i => simpa [Nat.add_comm 1] using congrArg (·.getLsbD i) h

theorem crcShifts_eq_iterate (n : Nat) (c : Word16) : crcShifts n c = crcShift^[n] c := by
  induction n generalizing c with
  | zero => rfl
  | succ n ih => exact ih (crcShift c)

theorem crcShifts_crcShifts (m n : Nat) (c : Word16) : crcShifts n (crcShifts m c) = crcShifts (n + m) c := by
  simp only [crcShifts_eq_iterate, Function.iterate_add_apply]

theorem crcShifts_xor (n : Nat) (c d : Word16) : crcShifts n (c ^^^ d) = crcShifts n c ^^^ crcShifts n d := by
  induction n generalizing c d with
  | zero => rfl
  | succ n ih => simp only [crcShifts, crcShift_xor, ih]

theorem crcShifts_eq_zero_iff {n : Nat} {c : Word16} : crcShifts n c = 0#16 ↔ c = 0#16 := by
  induction n generalizing c with
  | zero => rfl
  | succ n ih => exact ih.trans crcShift_eq_zero_iff

theorem crcShifts_injective (n : Nat) : Function.Injective (crcShifts n) := by
  intro c d h
  rw [← BitVec.xor_eq_zero_iff, ← crcShifts_xor, crcShifts_eq_zero_iff] at h
  exact BitVec.xor_eq_zero_iff.mp h

/-- Where every bit tested is 0 the constant never enters. -/
theorem crcShifts_of_low_false {n : Nat} {c : Word16} (h : ∀ i < n, c.getLsbD i = false) : crcShifts n c = c >>> n := by
  induction n generalizing c with
  | zero => simp [crcShifts]
  | succ n ih =>
    have htail : ∀ i < n, (c >>> 1).getLsbD i = false := fun i hi => by
      simpa [Nat.add_comm 1] using h (i + 1) (by omega)
    rw [crcShifts, crcShift_of_low_false (h 0 (by omega)), ih htail, ← BitVec.shiftRight_add, Nat.add_comm 1]

/-! ## One byte -/

theorem crcUpdate_xor (c d : Word16) (x y : Byte) : crcUpdate (c ^^^ d) (x ^^^ y) = crcUpdate c x ^^^ crcUpdate d y := by
  have harg : (c ^^^ d) ^^^ zext16 (x ^^^ y) = (c ^^^ zext16 x) ^^^ (d ^^^ zext16 y) := by
    rw [zext16, BitVec.setWidth_xor]
    ac_rfl
  rw [crcUpdate, harg, crcShifts_xor]
  rfl

theorem crcUpdate_injective_register (b : Byte) : Function.Injective fun c => crcUpdate c b := fun _ _ h =>
  BitVec.xor_left_inj _ |>.mp (crcShifts_injective 8 h)

theorem crcUpdate_injective_byte (c : Word16) : Function.Injective (crcUpdate c) := fun x y h => by
  have hz : zext16 x = zext16 y := BitVec.xor_right_inj _ |>.mp (crcShifts_injective 8 h)
  simpa using congrArg (BitVec.setWidth 8) hz

/-! ## The two bytes of a number -/

theorem le16_eq_xor (x y : Byte) : le16 x y = (zext16 y <<< 8) ^^^ zext16 x := by
  refine BitVec.eq_of_getLsbD_eq fun i hi => ?_
  by_cases h : i < 8
  · simp [hi, h]
  · simp [hi, h, BitVec.getLsbD_of_ge x i (by omega)]

theorem lowByte_le16 (x y : Byte) : lowByte (le16 x y) = x := by
  refine BitVec.eq_of_getLsbD_eq fun i hi => ?_
  simp [hi]

theorem highByte_le16 (x y : Byte) : highByte (le16 x y) = y := by
  refine BitVec.eq_of_getLsbD_eq fun i hi => ?_
  simp [hi, show 8 + i < 16 by omega]

/-- A number is le16 of two bytes exactly when they are its low and its high byte. -/
theorem eq_le16_iff {c : Word16} {x y : Byte} : c = le16 x y ↔ x = lowByte c ∧ y = highByte c := by
  constructor
  · rintro rfl
    exact ⟨(lowByte_le16 x y).symm, (highByte_le16 x y).symm⟩
  · rintro ⟨rfl, rfl⟩
    exact (le16_bytes c).symm

theorem zext16_highByte (c : Word16) : zext16 (highByte c) = c >>> 8 := by
  refine BitVec.eq_of_getLsbD_eq fun i hi => ?_
  by_cases h : i < 8
  · simp [hi, h]
  · simp [h, BitVec.getLsbD_of_ge c (8 + i) (by omega)]

/-- A byte in the high half comes down through eight iterations unchanged. -/
theorem crcShifts_high (b : Byte) : crcShifts 8 (zext16 b <<< 8) = zext16 b := by
  rw [crcShifts_of_low_false fun i hi => by simp [hi]]
  refine BitVec.eq_of_getLsbD_eq fun i hi => ?_
  by_cases h : 8 + i < 16
  · simp [hi, h]
  · simp [h, BitVec.getLsbD_of_ge b i (by omega)]

/-! ## Other forms of `crc_update` -/

/-- Only the low byte meets the constant; the high byte is shifted down (R113). -/
theorem crcShifts_eight (c : Word16) : crcShifts 8 c = (c >>> 8) ^^^ crcShifts 8 (zext16 (lowByte c)) := by
  conv_lhs => rw [← le16_bytes c, le16_eq_xor, crcShifts_xor, crcShifts_high, zext16_highByte]

theorem zext16_ushiftRight_eight (b : Byte) : zext16 b >>> 8 = 0#16 := by
  refine BitVec.eq_of_getLsbD_eq fun i _ => ?_
  simp

theorem crcSplit_eq_crcUpdate (c : Word16) (b : Byte) : crcSplit c b = crcUpdate c b := by
  rw [crcSplit, crcUpdate, crcShifts_eight (c ^^^ zext16 b), BitVec.ushiftRight_xor_distrib, zext16_ushiftRight_eight,
    BitVec.xor_zero]

/-- One iteration with the bits of the byte from `j` on still XORed in: the bit tested is `c[0] xor b[j]`. -/
theorem crcShift_xor_zext16 (c : Word16) (b : Byte) (j : Nat) :
    crcShift (c ^^^ (zext16 b >>> j)) =
      (if (c.getLsbD 0 ^^ b.getLsbD j) = true then (c >>> 1) ^^^ Config.crcPoly else c >>> 1) ^^^ (zext16 b >>> (j + 1)) := by
  have hbit : (c ^^^ (zext16 b >>> j)).getLsbD 0 = (c.getLsbD 0 ^^ b.getLsbD j) := by
    by_cases hj : j < 16
    · simp [hj]
    · simp [hj, BitVec.getLsbD_of_ge b j (by omega)]
  have hshift : (c ^^^ (zext16 b >>> j)) >>> 1 = (c >>> 1) ^^^ (zext16 b >>> (j + 1)) := by
    rw [BitVec.ushiftRight_xor_distrib, ← BitVec.shiftRight_add]
  rw [crcShift, hbit, hshift]
  split
  · ac_rfl
  · rfl

/-- The bit-serial form XORs the bits of the byte in one at a time; those after the last iteration are the ones it leaves out. -/
theorem crcBitSerial_eq (b : Byte) (n j : Nat) (c : Word16) :
    crcBitSerial b n j c = crcShifts n (c ^^^ (zext16 b >>> j)) ^^^ (zext16 b >>> (j + n)) := by
  induction n generalizing j c with
  | zero => simp [crcBitSerial, crcShifts]
  | succ n ih =>
    rw [crcBitSerial, ih, crcShifts, crcShift_xor_zext16, Nat.add_right_comm, Nat.add_assoc]

theorem crcBitSerial_eq_crcUpdate (c : Word16) (b : Byte) : crcBitSerial b 8 0 c = crcUpdate c b := by
  rw [crcBitSerial_eq, Nat.zero_add, zext16_ushiftRight_eight, BitVec.xor_zero, BitVec.ushiftRight_zero]
  rfl

/-! ## Byte lists -/

theorem crcFrom_eq_foldl (c : Word16) (s : List Byte) : crcFrom c s = s.foldl crcUpdate c := by
  induction s generalizing c with
  | nil => rfl
  | cons b s ih => rw [crcFrom_cons, ih, List.foldl_cons]

theorem crcFrom_xor (c d : Word16) {s t : List Byte} (h : s.length = t.length) :
    crcFrom (c ^^^ d) (List.zipWith (· ^^^ ·) s t) = crcFrom c s ^^^ crcFrom d t := by
  induction s generalizing c d t with
  | nil =>
    obtain rfl := List.length_eq_zero_iff.mp h.symm
    rfl
  | cons x s ih =>
    cases t with
    | nil => simp at h
    | cons y t => simpa [crcUpdate_xor] using ih (crcUpdate c x) (crcUpdate d y) (Nat.succ.inj h)

theorem crcFrom_injective (s : List Byte) : Function.Injective fun c => crcFrom c s := by
  induction s with
  | nil => exact fun _ _ h => h
  | cons b s ih => exact fun _ _ h => crcUpdate_injective_register b (ih (by simpa using h))

/-- Two bytes run through the register like one number of 16 bits. -/
theorem crcUpdate_crcUpdate (c : Word16) (x y : Byte) : crcUpdate (crcUpdate c x) y = crcShifts 16 (c ^^^ le16 x y) :=
  calc crcUpdate (crcUpdate c x) y
    _ = crcShifts 8 (crcShifts 8 (c ^^^ zext16 x) ^^^ crcShifts 8 (zext16 y <<< 8)) := by rw [crcShifts_high]; rfl
    _ = crcShifts 16 (c ^^^ zext16 x ^^^ (zext16 y <<< 8)) := by rw [← crcShifts_xor, crcShifts_crcShifts]
    _ = crcShifts 16 (c ^^^ le16 x y) := by rw [le16_eq_xor, BitVec.xor_assoc, BitVec.xor_comm (zext16 x)]

/-- The residue is zero exactly where the two bytes are the CRC of those before them (R115 (c)). -/
theorem crc16_append_pair_eq_zero_iff {s : List Byte} {x y : Byte} : crc16 (s ++ [x, y]) = 0#16 ↔ crc16 s = le16 x y := by
  have hpair : crc16 (s ++ [x, y]) = crcShifts 16 (crc16 s ^^^ le16 x y) := by
    rw [← crcUpdate_crcUpdate, crc16, crcFrom_append]
    simp [crc16]
  rw [hpair, crcShifts_eq_zero_iff, BitVec.xor_eq_zero_iff]

/-- A frame carries its CRC exactly when the CRC of the whole of it is zero. -/
theorem crc16_protectedPart_eq_iff {f : List Byte} (h : 2 ≤ f.length) :
    crc16 (protectedPart f) = carriedCrc f ↔ crc16 f = 0#16 := by
  obtain ⟨body, x, y, rfl⟩ : ∃ body x y, f = body ++ [x, y] := by
    obtain ⟨x, y, hxy⟩ := List.length_eq_two.mp (show (f.drop (f.length - 2)).length = 2 by simp; omega)
    exact ⟨f.take (f.length - 2), x, y, by rw [← hxy, List.take_append_drop]⟩
  rw [protectedPart_append, carriedCrc_append, crc16_append_pair_eq_zero_iff]

theorem crc16_sealFrame (body : List Byte) : crc16 (sealFrame body) = 0#16 :=
  (crc16_protectedPart_eq_iff (by simp)).mp (by simp)

/-- No list that differs from another in one byte has its CRC: the registers differ there and stay different. -/
theorem crc16_set_eq_iff {f : List Byte} {k : Nat} (h : k < f.length) {b : Byte} :
    crc16 (f.set k b) = crc16 f ↔ b = f[k] := by
  refine ⟨fun he => ?_, fun hb => by rw [hb, List.set_getElem_self]⟩
  have hsplit : f = f.take k ++ f[k] :: f.drop (k + 1) := by simp
  rw [List.set_eq_take_append_cons_drop, if_pos h] at he
  conv_rhs at he => rw [hsplit]
  simp only [crc16, crcFrom_append, crcFrom_cons] at he
  exact crcUpdate_injective_byte _ (crcFrom_injective _ he)

theorem xor_shiftLeft_one_ne (b : Byte) {j : Nat} (h : j < 8) : b ^^^ (1#8 <<< j) ≠ b := by
  intro he
  have := congrArg (·.getLsbD j) he
  simp [h] at this

/-- The CRC of a frame with one bit flipped is not zero, so the CRC it carries does not match (R115 (d)). -/
theorem crc16_protectedPart_flipped_ne (body : List Byte) {k j : Nat} (hk : k < (sealFrame body).length) (hj : j < 8) :
    let flipped := (sealFrame body).set k ((sealFrame body).getD k 0 ^^^ (1#8 <<< j))
    crc16 (protectedPart flipped) ≠ carriedCrc flipped := by
  intro flipped
  have hlen : 2 ≤ flipped.length := by simp [flipped]
  rw [Ne, crc16_protectedPart_eq_iff hlen, ← crc16_sealFrame body, crc16_set_eq_iff hk, List.getD_eq_getElem _ _ hk]
  exact xor_shiftLeft_one_ne _ hj

/-! ## The statements -/

/-- Settles O2: `crc16_concat`. -/
theorem crcRunningForm : Obligations.CrcRunningForm := crc16_concat

/-- Settles O3: the bit-serial form defers the bits of the byte, the split form takes the high byte out of the iterations. -/
theorem crcEquivalentForms : Obligations.CrcEquivalentForms := fun c b =>
  ⟨crcBitSerial_eq_crcUpdate c b, crcSplit_eq_crcUpdate c b⟩

/-- Settles O4: all four laws come from one iteration being linear with kernel zero; a map of the finitely many registers that loses
nothing is a bijection. -/
theorem crcLaws : Obligations.CrcLaws := by
  refine ⟨fun s t h => ?linear, fun s x y => ?residue, fun b => ?bijective, fun body k j hk hj => ?flipped⟩
  case linear => exact crcFrom_xor 0#16 0#16 h
  case residue => rw [crc16_append_pair_eq_zero_iff, eq_le16_iff]
  case bijective => exact Finite.injective_iff_bijective.mp (crcUpdate_injective_register b)
  case flipped => exact crc16_protectedPart_flipped_ne body hk hj

/-- Settles O1: the register run over a list is a left fold, and the eight iterations of one byte are an iterate of `crcShift`. -/
theorem crcFunctions : Obligations.CrcFunctions := by
  refine ⟨fun bytes s => ?_, fun c b s => ?_⟩
  · rw [← crcFrom_eq_foldl]
    rfl
  · have hiter : crcUpdate c b = crcShift^[8] (c ^^^ zext16 b) := crcShifts_eq_iterate 8 _
    change Host.Outcome.next (s.setRet (.word (crcUpdate c b))) = _
    rw [hiter]
    rfl

end Sys2Proof.Machine
end

section
/-! SUPPORT. `ResponseRoundTrip`, `DecodeResponseResult`, `ClassifyResult`, `EncodeResponseFrameResult` and `EncodeResult`: what the
functions of the codec answer, by the length of their argument and the test that fails first. -/

namespace Sys2Proof.Machine

/-! ## `classify` -/

section
variable {inc : Byte} {bytes : List Byte}

/-- A frame of six bytes is classified by the one byte of its body (40_frame_codec.md R124). -/
theorem classifyFrame_six (h : bytes.length = Config.minLen) :
    classifyFrame inc bytes =
      if bytes.getD 3 0 = Config.ackCode then .ack else if bytes.getD 3 0 = Config.nackCode then .nack
      else if bytes.getD 3 0 = inc then .incrementCommand else .message [bytes.getD 3 0] := if_pos h

theorem classifyFrame_long (h : Config.minLen < bytes.length) : classifyFrame inc bytes = .message (messageBody bytes) :=
  if_neg (Nat.ne_of_gt h)

theorem length_messageBody (bytes : List Byte) : (messageBody bytes).length = bytes.length - 5 := by
  simp only [messageBody, protectedPart, List.length_drop, List.length_take]
  omega

/-- The body starts at offset 3 of the frame (30_encoding.md R86). -/
theorem getD_messageBody {k : Nat} (h : k < (messageBody bytes).length) :
    (messageBody bytes).getD k 0 = bytes.getD (k + 3) 0 := by
  have hk : k + 3 < bytes.length - 2 := by rw [length_messageBody] at h; omega
  rw [messageBody, List.getD_eq_getElem?_getD, List.getElem?_drop, protectedPart, List.getElem?_take, Nat.add_comm, if_pos hk,
    List.getD_eq_getElem?_getD]

theorem exec_classify_refused (s : State) (h : bytes.length < Config.minLen) :
    exec (.classify bytes) s = .refused .notAFrame := if_pos h

theorem exec_classify {s : State} {r : Response} (h : Config.minLen ≤ bytes.length)
    (hr : classifyFrame s.params.incCmdCode bytes = r) :
    exec (.classify bytes) s = .next { s with ret := some (.response r) } :=
  (if_neg (Nat.not_lt.mpr h)).trans (by rw [hr]; rfl)

/-! ## `decodeResponse` -/

variable {a : Byte}

/-- A frame that passes the size, the address and the length comes to its CRC (R123). -/
theorem validateResponse_whole (h6 : Config.minLen ≤ bytes.length) (ha : bytes.getD 1 0 = a)
    (hl : Config.minLen ≤ (bytes.getD 2 0).toNat) :
    validateResponse inc bytes a =
      if crc16 (protectedPart bytes) = carriedCrc bytes then .ok (classifyFrame inc bytes)
      else .error (.integrityError (crc16 (protectedPart bytes)) (carriedCrc bytes)) := by
  have h3 : ¬ bytes.length < 3 := by simp only [Config.minLen] at h6; omega
  rw [validateResponse, if_neg h3, if_neg (not_not.mpr ha), if_neg (Nat.not_lt.mpr hl), if_neg (Nat.not_lt.mpr h6), ite_not]

theorem exec_decodeResponse_error {s : State} {e : Err} (h : validateResponse s.params.incCmdCode bytes a = .error e) :
    exec (.decodeResponse bytes a) s = .next { s with ret := some (.outcome (.err e)) } := by
  change execDecodeResponse bytes a s = _
  rw [execDecodeResponse, h]
  rfl

theorem exec_decodeResponse_ok {s : State} {r : Response} (h : validateResponse s.params.incCmdCode bytes a = .ok r) :
    exec (.decodeResponse bytes a) s = .next { s with ret := some (.outcome (.ok (.response r))) } := by
  change execDecodeResponse bytes a s = _
  rw [execDecodeResponse, h]
  rfl

end

/-! ## A frame of the slave -/

section
variable {inc a : Byte} {data : List Byte}

theorem classifyFrame_responseFrame_one (d : Byte) :
    classifyFrame inc (responseFrame a [d]) =
      if d = Config.ackCode then .ack else if d = Config.nackCode then .nack else if d = inc then .incrementCommand
      else .message [d] := rfl

theorem classifyFrame_responseFrame_long (h : 2 ≤ data.length) : classifyFrame inc (responseFrame a data) = .message data := by
  rw [classifyFrame_long (by rw [length_responseFrame, Config.minLen]; omega), messageBody_responseFrame]

/-- A slave frame with a body passes the tests of its own address (R127). -/
theorem validateResponse_responseFrame (h1 : 1 ≤ data.length) (h250 : data.length ≤ 250) :
    validateResponse inc (responseFrame a data) a = .ok (classifyFrame inc (responseFrame a data)) := by
  have hlen : Config.minLen ≤ (responseFrame a data).length := by rw [length_responseFrame, Config.minLen]; omega
  have hdeclared : Config.minLen ≤ ((responseFrame a data).getD 2 0).toNat := by
    change Config.minLen ≤ (BitVec.ofNat 8 (data.length + 5)).toNat
    rw [toNat_responseLength h250, Config.minLen]
    omega
  rw [validateResponse_whole hlen (by rfl) hdeclared, responseFrame, protectedPart_sealFrame, carriedCrc_sealFrame, if_pos rfl]

end

/-! ## `encode` -/

section
variable {s : State} {a c : Byte} {p : List Byte} (hs : s.ready)
include hs

theorem exec_encode_error {e : Err} (h : encodeRequest a c p = .error e) :
    exec (.encode a c p) s = .next { s with ret := some (.outcome (.err e)) } := by
  change execEncode a c p s = _
  rw [execEncode, State.whenIdle_idle _ hs.1 hs.2, h]
  rfl

theorem exec_encode_noMeaning (h : encodeRequest a c p = .noMeaning) : exec (.encode a c p) s = .refused .payload250 := by
  change execEncode a c p s = _
  rw [execEncode, State.whenIdle_idle _ hs.1 hs.2, h]

theorem exec_encode_frame {f : List Byte} (h : encodeRequest a c p = .frame f) :
    exec (.encode a c p) s =
      .next (State.setRet { s.loadTx f with crc := crc16 (requestBody a c p) } (.bytes f)) := by
  change execEncode a c p s = _
  rw [execEncode, State.whenIdle_idle _ hs.1 hs.2, h]

end

/-! ## The statements -/

/-- Settles O10: a frame with a body passes every test and is classified by that body; without one it declares length 5. -/
theorem responseRoundTrip : Obligations.ResponseRoundTrip := by
  refine fun inc a data h250 => ⟨fun h2 => ?long, fun d hd => ?one, fun h0 => ?none⟩
  case long => rw [validateResponse_responseFrame (by omega) h250, classifyFrame_responseFrame_long h2]
  case one =>
    subst hd
    rw [validateResponse_responseFrame (by simp) h250, classifyFrame_responseFrame_one]
  case none =>
    subst h0
    simp [validateResponse, responseFrame, responseBody, sealFrame, Config.minLen]

/-- Settles O7: `validateResponse` makes the tests in the order of the clauses. -/
theorem decodeResponseResult : Obligations.DecodeResponseResult := by
  intro s bytes a answer computed carried
  refine ⟨fun h => ?size, fun h3 ha => ?address, fun h3 ha hl => ?declared, fun h3 ha hl h6 => ?short,
    fun h6 ha hl hc => ?crc, fun h6 ha hl hc => ?passed⟩
  case size => exact exec_decodeResponse_error (if_pos h)
  case address =>
    exact exec_decodeResponse_error (by rw [validateResponse, if_neg (Nat.not_lt.mpr h3), if_pos ha])
  case declared =>
    exact exec_decodeResponse_error (by
      rw [validateResponse, if_neg (Nat.not_lt.mpr h3), if_neg (not_not.mpr ha), if_pos hl])
  case short =>
    exact exec_decodeResponse_error (by
      rw [validateResponse, if_neg (Nat.not_lt.mpr h3), if_neg (not_not.mpr ha), if_neg (Nat.not_lt.mpr hl), if_pos h6])
  case crc => exact exec_decodeResponse_error ((validateResponse_whole h6 ha hl).trans (if_neg hc))
  case passed => exact exec_decodeResponse_ok ((validateResponse_whole h6 ha hl).trans (if_pos hc))

/-- Settles O8: below six bytes the row is refused, at six `classifyFrame_six` decides, above six the body is the message. -/
theorem classifyResult : Obligations.ClassifyResult := by
  intro s bytes answer d
  have six (h : bytes.length = 6) {r : Response} (hr : classifyFrame s.params.incCmdCode bytes = r) : answer r :=
    exec_classify (Nat.le_of_eq h.symm) hr
  refine ⟨exec_classify_refused s, fun h hd => ?ack, fun h hd => ?nack, fun h h0 hF hi => ?increment,
    fun h h0 hF hi => ?message, fun h => ?long⟩
  case ack => exact six h (by rw [classifyFrame_six h, if_pos hd])
  case nack => exact six h (by rw [classifyFrame_six h, if_neg (hd.trans_ne (by decide)), if_pos hd])
  case increment => exact six h (by rw [classifyFrame_six h, if_neg h0, if_neg hF, if_pos hi])
  case message => exact six h (by rw [classifyFrame_six h, if_neg h0, if_neg hF, if_neg hi])
  case long =>
    exact ⟨messageBody bytes, length_messageBody bytes, fun k hk => getD_messageBody hk,
      exec_classify (Nat.le_of_lt h) (classifyFrame_long h)⟩

/-- Settles O9: the row tests the length of the body and returns `responseFrame`. -/
theorem encodeResponseFrameResult : Obligations.EncodeResponseFrameResult := by
  refine fun s a data => ⟨fun h => ?_, fun h => ?_⟩
  · exact if_neg (by omega)
  · exact if_pos (by omega)

/-- Settles O5: in `Idle` the row runs, and `encodeRequest` splits at 250 payload bytes. -/
theorem encodeResult : Obligations.EncodeResult := by
  intro s a c p hs hm
  refine ⟨fun h => ?tooLarge, fun h => ?noMeaning, fun h => ?frame⟩
  case tooLarge => exact exec_encode_error hs (if_pos h)
  case noMeaning => exact exec_encode_noMeaning hs (by rw [encodeRequest, if_neg (by simp [h]), if_pos h])
  case frame =>
    intro body f
    have hframe : encodeRequest a c p = .frame f := by
      rw [encodeRequest, if_neg (by simp only [Config.maxPayload]; omega), if_neg (by simp only [Config.maxPayload]; omega)]
      rfl
    refine ⟨s.txbuf.writeBytes 0 f, Memory.loaded_writeBytes hm (by simp [f, body, Config.maxFrame]; omega), ?_⟩
    rw [exec_encode_frame hs hframe, ← length_requestFrame a c p]
    rfl

end Sys2Proof.Machine
end

section
/-! SUPPORT. `BareResponses` and `AddressMismatchRejected`: bytes of the slave, whatever their row, come to `receiveBytes`; a whole
frame with its right CRC and a bare class ends the exchange. -/

namespace Sys2Proof.Machine


/-- Every row of the slave delivers its bytes to the block (30_encoding.md R94). -/
theorem exec_of_encode_slave {addr : Byte} {i : Instr} {bytes : List Byte} (s : State)
    (h : Sys2Proof.encode addr i = some (.slave, bytes)) : exec i s = receiveBytes bytes s := by
  cases i
  case rspAck | rspNack | rspIncrementCommand | rspMessage1 | rspMessage | rspBadAddress | rspTooShort | rspBadCrc =>
    cases h
    rfl
  all_goals cases h

/-- A valid frame of a class that is no `Message` ends the exchange with nothing sent (42_link_protocol.md R173, R174). -/
theorem finishFrame_bare {s : State} {r : Response} (hc : crc16 (protectedPart s.rxFrame) = carriedCrc s.rxFrame)
    (hr : classifyFrame s.params.incCmdCode s.rxFrame = r) (hbare : ∀ m, r ≠ .message m) : finishFrame s = s.complete r := by
  rcases finishFrame_cases s with ⟨hne, -⟩ | ⟨-, m, hm, -⟩ | ⟨-, -, hf⟩
  · exact absurd hc hne
  · exact absurd (hr.symm.trans hm) (hbare m)
  · rw [hf, hr]

theorem State.hunts.receiveBytes_bareFrame {s : State} (h : s.hunts) {data : List Byte} (h1 : 1 ≤ data.length)
    (h250 : data.length ≤ 250) {r : Response} (hr : classifyFrame s.params.incCmdCode (responseFrame s.addr data) = r)
    (hbare : ∀ m, r ≠ .message m) :
    receiveBytes (responseFrame s.addr data) s =
      .next ((s.frameRead data (crc16 (responseBody s.addr data))).complete r) := by
  have hframe : (s.frameRead data (crc16 (responseBody s.addr data))).rxFrame = responseFrame s.addr data :=
    State.rxFrame_frameRead h.rxForm h250 _
  rw [Laws.responseFrame_eq, h.receiveBytes_wholeFrame h1 h250, finishFrame_bare ?crc ?kind hbare]
  case crc => rw [hframe, responseFrame, protectedPart_sealFrame, carriedCrc_sealFrame]
  case kind => rw [hframe]; exact hr

/-- Settles O42: the six-byte frame is the slave's frame of the one byte `d`, and `d` gives its class. -/
theorem bareResponses : Obligations.BareResponses := by
  intro s h ends
  have bare {i : Instr} {d : Byte} {r : Response} (hi : exec i s = receiveBytes (responseFrame s.addr [d]) s)
      (hr : classifyFrame s.params.incCmdCode (responseFrame s.addr [d]) = r) (hbare : ∀ m, r ≠ .message m) : ends i d r := by
    refine ⟨_, Memory.loaded_writeBytes h.rxForm (by simp [sixByteFrame, Config.maxFrame]), ?_⟩
    rw [hi, h.receiveBytes_bareFrame (by simp) (by simp) hr hbare, State.frameRead, h.midFrame_all]
    rfl
  refine ⟨bare rfl rfl (by simp), bare rfl rfl (by simp), fun d hd h0 hF => bare rfl ?_ (by simp)⟩
  rw [classifyFrame_responseFrame_one, if_neg h0, if_neg hF, if_pos hd]

/-- Settles O45: the block reads `SYNC` and the second byte, which fails the frame (`State.hunts.receiveBytes_wrongAddress`). -/
theorem addressMismatchRejected : Obligations.AddressMismatchRejected := by
  intro s i x rest h hx he
  refine ⟨_, Memory.loaded_writeBytes h.rxForm (by simp [Config.maxFrame]), ?_⟩
  rw [exec_of_encode_slave s he, h.receiveBytes_wrongAddress hx]
  rfl

end Sys2Proof.Machine
end

section
/-! SUPPORT. `SpacingFloor`: of all that a step can do only the stamp writes `last_req`, and it stands behind the floor. -/

namespace Sys2Proof.Machine

/-! ## The receive phase does not stamp -/

@[simp] theorem State.sendNack_lastReq (s : State) (e : Err) : (s.sendNack e).lastReq = s.lastReq := by
  rcases s.sendNack_cases e with ⟨-, h⟩ | ⟨-, k, h⟩ <;> rw [h] <;> rfl

@[simp] theorem State.sendAck_lastReq (s : State) (m : List Byte) : (s.sendAck m).lastReq = s.lastReq := by
  rcases s.sendAck_cases m with ⟨-, h⟩ | ⟨-, k, h⟩ <;> rw [h] <;> rfl

@[simp] theorem State.failRx_lastReq (s : State) (e : Err) : (s.failRx e).lastReq = s.lastReq := by
  rcases s.failRx_cases e with ⟨-, -, h⟩ | ⟨-, h⟩ <;> rw [h]
  · rfl
  · rw [State.sendNack_lastReq, State.setPendErr_lastReq]

@[simp] theorem finishFrame_lastReq (s : State) : (finishFrame s).lastReq = s.lastReq := by
  rcases finishFrame_cases s with ⟨-, h⟩ | ⟨-, m, -, h⟩ | ⟨-, -, h⟩ <;> rw [h]
  · exact s.failRx_lastReq _
  · exact s.sendAck_lastReq m
  · rfl

@[simp] theorem State.storeBody_lastReq (s : State) (b : Byte) : (s.storeBody b).lastReq = s.lastReq := by
  rcases s.storeBody_cases b with ⟨-, h⟩ | ⟨-, h⟩ <;> rw [h] <;> rfl

theorem takeByte_lastReq {s t : State} {b : Byte} (hr : s.receiving) (h : takeByte b s = .next t) :
    t.lastReq = s.lastReq := by
  rcases hr with hp | hp
  · rw [takeByte_waitingEcho hp, Host.Outcome.next.injEq] at h
    subst h
    split_ifs <;> rfl
  · rcases takeByte_receivingFrame hp b with ⟨-, -, hs⟩ | ⟨-, -, hs⟩ | ⟨-, -, hs⟩ | ⟨-, -, hs⟩ | ⟨-, -, hs⟩ | ⟨-, -, hs⟩ |
      ⟨-, hs⟩ <;> rw [hs] at h <;> simp only [Host.Outcome.next.injEq, reduceCtorEq] at h <;> subst h <;> simp

theorem receiveStep_lastReq {s t : State} (hr : s.receiving) (h : receiveStep s = .next t) : t.lastReq = s.lastReq := by
  rcases receiveStep_cases s with ⟨b, rest, -, -, hs⟩ | ⟨b, rest, -, -, -, hs⟩ | ⟨b, rest, -, -, -, hs⟩ | ⟨-, -, hs⟩ |
    ⟨-, -, hs⟩ <;> rw [hs] at h
  · exact takeByte_lastReq (s := s.takeInput rest) hr h
  · exact takeByte_lastReq (s := State.takeInput { s with ties := s.ties + 1 } rest) hr h
  · exact Host.Outcome.next.inj h ▸ State.failRx_lastReq { s with ties := s.ties + 1 } .readTimeout
  · exact Host.Outcome.next.inj h ▸ s.failRx_lastReq _
  · exact Host.Outcome.next.inj h ▸ rfl

theorem receiveUpTo_lastReq {n : Nat} {s t : State} (h : receiveUpTo n s = .next t) : t.lastReq = s.lastReq :=
  receiveUpTo_induct (P := fun u => u.lastReq = s.lastReq) (fun _ _ hu hr hv => (receiveStep_lastReq hr hv).trans hu) n s t
    rfl h

/-! ## The stamp -/

/-- From `s` to `t` the stamp stays, or is written with the floor met (41_transport_governor.md R141, R145). -/
def State.StampsByFloor (s t : State) : Prop := t.lastReq = s.lastReq ∨ s.floorMet ∧ t.lastReq = s.now

/-- `delayBeforeRequest` by itself and the issue of a request, whatever its outcome, stamp; `construct` stamps too, but a constructed
block does not run it (10_state.md R41). -/
theorem Effect.stampsByFloor {s t : State} (e : Effect s t) (ho : s.opened = true) : s.StampsByFloor t := by
  cases e with
  | same => exact .inl rfl
  | returned => exact .inl rfl
  | encoded => exact .inl rfl
  | stamped _ _ hf => exact .inr ⟨hf, rfl⟩
  | status => exact .inl rfl
  | accepted => exact .inl rfl
  | breakBegun => exact .inl rfl
  | breakEnded => exact .inl rfl
  | constructed _ _ _ hn => simp [ho] at hn
  | notOpened => exact .inl rfl
  | tooLarge _ _ hf => exact .inr ⟨hf, rfl⟩
  | requestSent _ _ hf => exact .inr ⟨hf, rfl⟩
  | requestLost _ _ _ hf => exact .inr ⟨hf, rfl⟩
  | requestDrained => exact .inl rfl
  | ackDrained => exact .inl rfl
  | nackDrained => exact .inl rfl
  | acked m => exact .inl (s.sendAck_lastReq m)
  | nacked e => exact .inl (s.sendNack_lastReq e)
  | bytesRead bytes _ _ _ _ h => exact .inl (receiveUpTo_lastReq (s := { s with inQueue := s.inQueue ++ bytes }) h)
  | bytesQueued => exact .inl rfl
  | readOnce _ _ hr h => exact .inl (receiveStep_lastReq hr h)

/-- What stamps takes no time (R142, R143). -/
theorem Effect.lastReq_spaced {s t : State} (e : Effect s t) (ho : s.opened = true) :
    t.lastReq = s.lastReq ∨ (t.lastReq = s.now ∧ t.now = s.now ∧ s.lastReq + 150 ≤ t.lastReq) := by
  rcases e.stampsByFloor ho with h | ⟨hf, h⟩
  · exact .inl h
  · exact .inr ⟨h, (e.onlyQueues ho).now, h ▸ hf⟩

/-- Settles O54: time and the drain leave the stamp alone, and an `Effect` spaces it (`Effect.lastReq_spaced`). -/
theorem spacingFloor : Obligations.SpacingFloor := by
  intro s t ho h
  rcases step_effect h with ⟨m, rest, -, ⟨ms, rfl⟩ | ⟨n, rfl⟩ | e⟩ | ⟨-, e⟩
  · exact .inl rfl
  · exact .inl rfl
  · exact e.lastReq_spaced ho
  · exact e.lastReq_spaced ho

end Sys2Proof.Machine
end

section
/-! SUPPORT. `RequestIssued`, `DelayByItself`, `DrainObserved`, `LinkBreak` and `ReadTimeouts`: each function of the governor by `state`,
then by the condition it observes. -/

namespace Sys2Proof.Machine

/-! ## The spacing floor -/

section
variable {s : State}

theorem exec_delayBeforeRequest_delay (ho : s.opened = true) (hp : s.phase = .delay) :
    exec .delayBeforeRequest s = observeFloor s := by
  simp [exec, execDelayBeforeRequest, ho, hp]

theorem exec_delayBeforeRequest_idle (hs : s.ready) :
    exec .delayBeforeRequest s = if s.floorMet then .next (s.stamp.setRet .unit) else .next (s.setRet .waiting) := by
  obtain ⟨ho, hp⟩ := hs
  simp [exec, execDelayBeforeRequest, ho, hp]

/-- In `Delay` the row of the request in flight is the observation of the floor (42_link_protocol.md R162). -/
theorem sendRequest_inFlight {cmd a : Byte} (ho : s.opened = true) (hp : s.phase = .delay)
    (h : s.curCmd = cmd ∧ s.curPayload = [] ∧ a = s.addr) : sendRequest cmd a s = observeFloor s := by
  rw [sendRequest, if_neg (by simp [ho]), if_pos ⟨hp, h⟩]

/-- In `Delay` every instruction that issues the request is the observation of the floor. -/
theorem exec_issuesRequest {i : Instr} (hi : issuesRequest i s) (ho : s.opened = true) (hp : s.phase = .delay) :
    exec i s = observeFloor s := by
  cases i
  case delayBeforeRequest => exact exec_delayBeforeRequest_delay ho hp
  case reqGetStatus | reqPoll | reqStack | reqReturn | reqExtIdent | reqGetBillTable | reqRecCassetteStatus =>
    exact sendRequest_inFlight ho hp hi
  all_goals exact hi.elim

theorem observeFloor_met (h : s.floorMet) : observeFloor s = issueRequest s := if_pos h

/-- A request with a frame whose write succeeds is queued whole (42_link_protocol.md R165). -/
theorem issueRequest_sent (hl : s.curPayload.length ≤ 249) (hm : s.txbuf.wf) (hw : s.writeSucceeds = true) :
    issueRequest s = .next { s.requestLoaded s.request with
      outQueue := s.outQueue ++ s.request, writeFaults := s.writeFaults.tail, phase := .sending } := by
  rcases issueRequest_cases s with ⟨hl', -⟩ | ⟨hl', -⟩ | ⟨-, -, h⟩ | ⟨-, hw', -⟩
  · omega
  · omega
  · rw [h, State.txFrame_loadTx hm.1]
  · simp [hw] at hw'

end

/-- Settles O27: each of the eight instructions observes the floor (`exec_issuesRequest`), and the request is queued whole. -/
theorem requestIssued : Obligations.RequestIssued := by
  intro i s hi ho hp hf hl hm hw body f
  refine ⟨s.txbuf.writeBytes 0 f, Memory.loaded_writeBytes hm (by simp [f, body, Config.maxFrame]; omega), ?_⟩
  rw [exec_issuesRequest hi ho hp, observeFloor_met hf, issueRequest_sent hl hm hw,
    ← length_requestFrame s.addr s.curCmd s.curPayload]
  rfl

/-- Settles O29: the two branches of `exec_delayBeforeRequest_idle`. -/
theorem delayByItself : Obligations.DelayByItself := by
  intro s hs
  rw [exec_delayBeforeRequest_idle hs]
  exact ⟨fun h => if_pos h, fun h => if_neg (Nat.not_le.mpr h)⟩

/-! ## The drain -/

section
variable {s : State}

theorem exec_waitForTransmitComplete_draining (ho : s.opened = true)
    (hp : s.phase = .sending ∨ s.phase = .ackSent ∨ s.phase = .nackSent) :
    exec .waitForTransmitComplete s = observeDrain s := by
  rcases hp with hp | hp | hp <;> simp [exec, execWaitForTransmitComplete, ho, hp]

/-- Where nothing waits for the drain the function only answers (41_transport_governor.md R147). -/
theorem exec_waitForTransmitComplete_answers (ho : s.opened = true) (h1 : s.phase ≠ .sending) (h2 : s.phase ≠ .ackSent)
    (h3 : s.phase ≠ .nackSent) :
    exec .waitForTransmitComplete s = .next (s.setRet (if s.outQueue = [] then .unit else .waiting)) := by
  cases hp : s.phase
  case sending => exact absurd hp h1
  case ackSent => exact absurd hp h2
  case nackSent => exact absurd hp h3
  all_goals by_cases hq : s.outQueue = [] <;> simp [exec, execWaitForTransmitComplete, State.pending, ho, hp, hq]

theorem observeDrain_pending (h : s.outQueue ≠ []) : observeDrain s = .next s :=
  if_neg (mt List.length_eq_zero_iff.mp h)

theorem observeDrain_empty (h : s.outQueue = []) : observeDrain s = drained s :=
  if_pos (List.length_eq_zero_iff.mpr h)

theorem drained_sending (hp : s.phase = .sending) :
    drained s = .next { s with rxDeadline := s.now + Config.tRead, rxCount := 0, phase := .waitingEcho } := by
  simp only [drained, hp]

theorem drained_ackSent (hp : s.phase = .ackSent) : drained s = .next (s.complete (.message s.message)) := by
  simp only [drained, hp]

theorem drained_nackSent {e : Err} (hp : s.phase = .nackSent) (he : s.pendErr = some e) :
    drained s = .next (s.raise e) := by
  simp only [drained, hp, he]

end

/-- Settles O30: in the three states that wait for the drain the function is `observeDrain`, elsewhere it answers. -/
theorem drainObserved : Obligations.DrainObserved := by
  intro s ho
  refine ⟨fun hp hq => ?pending, fun hp hq => ?sending, fun hp hq => ?ackSent, fun e hp hq he => ?nackSent,
    exec_waitForTransmitComplete_answers ho⟩
  case pending => rw [exec_waitForTransmitComplete_draining ho hp, observeDrain_pending hq]
  case sending =>
    rw [exec_waitForTransmitComplete_draining ho (.inl hp), observeDrain_empty hq, drained_sending hp]
  case ackSent =>
    rw [exec_waitForTransmitComplete_draining ho (.inr (.inl hp)), observeDrain_empty hq, drained_ackSent hp]
    rfl
  case nackSent =>
    rw [exec_waitForTransmitComplete_draining ho (.inr (.inr hp)), observeDrain_empty hq, drained_nackSent hp he]
    rfl

/-! ## The break -/

section
variable {s : State}

theorem exec_resetLink_breaking (ho : s.opened = true) (hp : s.phase = .breaking) :
    exec .resetLink s = observeBreak s := if_pos ⟨ho, hp⟩

theorem exec_resetLink_begins (h : ¬ (s.opened = true ∧ s.phase = .breaking)) :
    exec .resetLink s = beginBreak s := if_neg h

theorem beginBreak_ready (hs : s.ready) :
    beginBreak s = .next { s.assertBreak with
      breakUntil := s.now + Config.tBreak, phase := .breaking, curOp := .resetAll, res := none, rxCount := 0 } :=
  State.whenIdle_idle _ hs.1 hs.2

/-- In `Idle` the two rows are one call (44_device_controller.md R248, assumption log 26). -/
theorem exec_linkReset_ready (hs : s.ready) {i : Instr} (hi : i ∈ [Instr.resetAll, .resetLink]) :
    exec i s = beginBreak s := by
  simp only [List.mem_cons, List.not_mem_nil, or_false] at hi
  rcases hi with rfl | rfl
  · rfl
  · exact exec_resetLink_begins (by simp [hs.2])

end

/-- Settles O24: the break begins through `State.whenIdle` and, in `Breaking`, ends by the clock. -/
theorem linkBreak : Obligations.LinkBreak := by
  intro s
  refine ⟨fun hs => ⟨none, fun i hi => ?begins⟩, fun ho hp ht => ?held, fun ho hp ht => ?released, fun t h => ?only⟩
  case begins => exact (exec_linkReset_ready hs hi).trans (beginBreak_ready hs)
  case held =>
    rw [exec_resetLink_breaking ho hp]
    exact if_neg (Nat.not_le.mpr ht)
  case released =>
    rw [exec_resetLink_breaking ho hp]
    exact if_pos ht
  case only =>
    by_cases hb : s.opened = true ∧ s.phase = .breaking
    · exact .inr hb
    · rw [exec_resetLink_begins hb] at h
      obtain ⟨ho, hp, -⟩ := State.whenIdle_next h
      exact .inl ⟨ho, hp⟩

/-! ## The read timeout -/

/-- The deadline after a byte is read, in both scopes (41_transport_governor.md R152). -/
theorem State.takeInput_eq (s : State) (rest : List Byte) :
    s.takeInput rest = { s with inQueue := rest, rxDeadline := s.nextDeadline } := by
  cases h : s.params.rxTimeoutScope <;> simp [State.takeInput, State.nextDeadline, h]

section
variable {s : State}

theorem receiveStep_noByte (hq : s.inQueue = []) :
    receiveStep s = if s.rxDeadline ≤ s.now then .next (s.failRx .readTimeout) else .next s := by
  by_cases hd : s.rxDeadline ≤ s.now <;> simp [receiveStep, State.readByte, hq, hd]

/-- The tie (R153): the free value of assumption log 2 decides. -/
theorem receiveStep_tie {b : Byte} {rest : List Byte} (hq : s.inQueue = b :: rest) (hd : s.rxDeadline ≤ s.now) :
    receiveStep s =
      if Config.tieTakesByte s.ties then takeByte b (State.takeInput { s with ties := s.ties + 1 } rest)
      else .next (State.failRx { s with ties := s.ties + 1 } .readTimeout) := by
  cases ht : Config.tieTakesByte s.ties <;> simp [receiveStep, State.readByte, hq, hd, ht]

end

/-- Settles O41: the block's own step in the receive phase is one read, which has a byte or none, in time or not. -/
theorem readTimeouts : Obligations.ReadTimeouts := by
  intro s hs ho hr
  rw [step_of_script_nil hs, blockMove_receiving ho hr]
  refine ⟨fun hq hd => ?waits, fun hq hd => ?timesOut, fun b rest hq hd => ?inTime, fun b rest hq hd => ?tie⟩
  case waits => rw [receiveStep_noByte hq, if_neg (Nat.not_le.mpr hd)]
  case timesOut => rw [receiveStep_noByte hq, if_pos hd]
  case inTime => rw [receiveStep_inTime hq hd, State.takeInput_eq]
  case tie =>
    rw [receiveStep_tie hq hd, State.takeInput_eq]
    split_ifs
    · exact .inr rfl
    · exact .inl rfl

end Sys2Proof.Machine
end

section
/-! SUPPORT. `RequestNotIssued`, `FailReceive`, `MasterNackSent`, `MasterAckSent`, `ExchangeAccepted` and
`MasterFramesNowhereElse`: a frame of the master that is handed to the transport is queued whole, or a known part of it is and the
operation ends. -/

namespace Sys2Proof.Machine

/-! ## Handing a frame to the transport -/

section
variable {s : State} {k : Nat} {rest : List (Option Nat)}

/-- The call that fails has queued as many bytes as the input says (20_memory.md R57, assumption log 23). -/
theorem State.writeAll_failed (hw : s.writeFaults = some k :: rest) (bs : List Byte) :
    s.writeAll bs = (false, { s with outQueue := s.outQueue ++ bs.take k, writeFaults := rest }) := by
  simp only [State.writeAll, hw]

theorem State.sendFrame_sent (hm : s.txbuf.wf) (hw : s.writeSucceeds = true) (f : List Byte) :
    s.sendFrame f =
      (true, { s.loadTx f with outQueue := s.outQueue ++ f, writeFaults := s.writeFaults.tail }) := by
  have h := (s.loadTx f).writeAll_ok hw (s.loadTx f).txFrame
  rw [State.txFrame_loadTx hm.1] at h
  rw [State.sendFrame, State.txFrame_loadTx hm.1, h]
  rfl

theorem State.sendFrame_failed (hm : s.txbuf.wf) (hw : s.writeFaults = some k :: rest) (f : List Byte) :
    s.sendFrame f =
      (false, { s.loadTx f with outQueue := s.outQueue ++ f.take k, writeFaults := rest }) := by
  rw [State.sendFrame, State.txFrame_loadTx hm.1]
  exact State.writeAll_failed (s := s.loadTx f) hw f

/-- The NACK is queued whole (42_link_protocol.md R177, R178). -/
theorem State.sendNack_sent (hm : s.txbuf.wf) (hw : s.writeSucceeds = true) (e : Err) :
    s.sendNack e = { s with
      txbuf := s.txbuf.writeBytes 0 s.nackFrame, txLen := 6, outQueue := s.outQueue ++ s.nackFrame
      writeFaults := s.writeFaults.tail, phase := .nackSent, rxCount := 0 } := by
  rw [State.sendNack, State.sendFrame_sent hm hw]
  rfl

/-- The NACK is dropped and the error surfaced (60_exceptions.md R281). -/
theorem State.sendNack_failed (hm : s.txbuf.wf) (hw : s.writeFaults = some k :: rest) (e : Err) :
    s.sendNack e = { s with
      txbuf := s.txbuf.writeBytes 0 s.nackFrame, txLen := 6, outQueue := s.outQueue ++ s.nackFrame.take k
      writeFaults := rest, phase := .idle, res := some (.err e), rxCount := s.idleRxCount, ended := s.ended + 1 } := by
  rw [State.sendNack, State.sendFrame_failed hm hw]
  rfl

/-- The ACK is queued whole and the message held (42_link_protocol.md R176, R178). -/
theorem State.sendAck_sent (hm : s.txbuf.wf) (hw : s.writeSucceeds = true) (m : List Byte) :
    s.sendAck m = { s with
      txbuf := s.txbuf.writeBytes 0 s.ackFrame, txLen := 6, outQueue := s.outQueue ++ s.ackFrame
      writeFaults := s.writeFaults.tail, phase := .ackSent, rxCount := 0, message := m } := by
  rw [State.sendAck, State.sendFrame_sent hm hw]
  rfl

/-- `WriteFailure` takes the place of the message (R174). -/
theorem State.sendAck_failed (hm : s.txbuf.wf) (hw : s.writeFaults = some k :: rest) (m : List Byte) :
    s.sendAck m = { s with
      txbuf := s.txbuf.writeBytes 0 s.ackFrame, txLen := 6, outQueue := s.outQueue ++ s.ackFrame.take k
      writeFaults := rest, phase := .idle, res := some (.err .writeFailure), rxCount := s.idleRxCount
      ended := s.ended + 1 } := by
  rw [State.sendAck, State.sendFrame_failed hm hw]
  rfl

/-- The six-byte frame of the statements is the request frame without a payload (30_encoding.md R90), stored whole. -/
theorem Memory.loaded_sixByteFrame {m : Memory} (hm : m.wf) (a c : Byte) :
    m.loaded (sixByteFrame a c) (m.writeBytes 0 (requestFrame a c [])) :=
  Memory.loaded_writeBytes hm (by simp [sixByteFrame, Config.maxFrame])

/-! ## The request -/

/-- A request with a frame whose write fails (R165): no NACK, `WriteFailure` at once. -/
theorem issueRequest_failed (hl : s.curPayload.length ≤ 249) (hm : s.txbuf.wf) (hw : s.writeFaults = some k :: rest) :
    issueRequest s = .next (State.raise { s.requestLoaded s.request with
      outQueue := s.outQueue ++ s.request.take k, writeFaults := rest } .writeFailure) := by
  have hframe : encodeRequest s.addr s.curCmd s.curPayload = .frame s.request := by
    rw [encodeRequest, if_neg (by simp only [Config.maxPayload]; omega), if_neg (by simp only [Config.maxPayload]; omega)]
  have htx : (s.requestLoaded s.request).txFrame = s.request := State.txFrame_loadTx hm.1 _
  simp only [issueRequest, hframe, htx, State.writeAll_failed (s := s.requestLoaded s.request) hw]
  rfl

theorem issueRequest_tooLarge (hl : 250 < s.curPayload.length) :
    issueRequest s = .next (s.stamp.raise (.payloadTooLarge s.curPayload.length)) := by
  rw [issueRequest, encodeRequest, if_pos hl]

theorem issueRequest_noMeaning (hl : s.curPayload.length = 250) : issueRequest s = .refused .payload250 := by
  rw [issueRequest, encodeRequest, if_neg (by simp [hl]), if_pos hl]

theorem observeFloor_early (h : s.now < s.lastReq + 150) : observeFloor s = .next s := if_neg (Nat.not_le.mpr h)

end

/-- Settles O28: each of the eight instructions observes the floor (`exec_issuesRequest`); behind it the length of the payload and
the coming write decide. -/
theorem requestNotIssued : Obligations.RequestNotIssued := by
  intro i s hi ho hp
  rw [exec_issuesRequest hi ho hp]
  refine ⟨observeFloor_early, fun hf hl => ?tooLarge, fun hf hl => ?noMeaning, fun k rest hf hl hm hw => ?failed⟩
  case tooLarge => exact (observeFloor_met hf).trans (issueRequest_tooLarge hl)
  case noMeaning => exact (observeFloor_met hf).trans (issueRequest_noMeaning hl)
  case failed =>
    intro body f
    refine ⟨s.txbuf.writeBytes 0 f, Memory.loaded_writeBytes hm (by simp [f, body, Config.maxFrame]; omega), ?_⟩
    rw [observeFloor_met hf, issueRequest_failed hl hm hw, ← length_requestFrame s.addr s.curCmd s.curPayload]
    rfl

/-! ## Taking an error -/

/-- Settles O34: the branch of `State.failRx_cases`, then the NACK written or not. -/
theorem failReceive : Obligations.FailReceive := by
  intro s e hm
  have hnack (hn : ¬ (e = .readTimeout ∧ s.params.nackOnTimeout = false)) : s.failRx e = (s.setPendErr e).sendNack e :=
    if_neg hn
  refine ⟨fun he hn => if_pos ⟨he, hn⟩, fun hn hw => ?written, fun k rest hn hw => ?notWritten⟩
  case written =>
    exact ⟨_, Memory.loaded_sixByteFrame hm _ _, (hnack hn).trans (State.sendNack_sent (s := s.setPendErr e) hm hw e)⟩
  case notWritten =>
    exact ⟨_, Memory.loaded_sixByteFrame hm _ _, (hnack hn).trans (State.sendNack_failed (s := s.setPendErr e) hm hw e)⟩

/-- The row of the NACK frame, where it is sent (R175, R177). -/
theorem exec_masterNack {s : State} {e : Err} (ho : s.opened = true) (hr : s.receiving) (he : s.pendErr = some e) :
    exec (.masterNack s.addr) s = .next (s.sendNack e) := by
  change execMasterNack s.addr s = _
  simp only [execMasterNack, ho, he, Bool.true_eq_false, if_false, and_true, if_pos hr]

/-- Settles O32: the row sends the NACK for the pending error, which is written or not. -/
theorem masterNackSent : Obligations.MasterNackSent := by
  intro s e ho hr he hm
  rw [exec_masterNack ho hr he]
  exact ⟨fun hw => ⟨_, Memory.loaded_sixByteFrame hm _ _, congrArg _ (State.sendNack_sent hm hw e)⟩, fun k rest hw =>
    ⟨_, Memory.loaded_sixByteFrame hm _ _, congrArg _ (State.sendNack_failed hm hw e)⟩⟩

/-! ## The message acknowledged -/

theorem Memory.take_readBytes (m : Memory) (off n k : Nat) : (m.readBytes off n).take k = m.readBytes off (min k n) := by
  refine List.ext_getElem (by simp) fun i _ _ => ?_
  rw [List.getElem_take, Memory.getElem_readBytes, Memory.getElem_readBytes]

theorem Memory.drop_readBytes (m : Memory) (off n k : Nat) :
    (m.readBytes off n).drop k = m.readBytes (off + k) (n - k) := by
  refine List.ext_getElem (by simp) fun i _ _ => ?_
  rw [List.getElem_drop, Memory.getElem_readBytes, Memory.getElem_readBytes, Nat.add_assoc]

/-- The bytes before the CRC field of a frame in a buffer. -/
theorem Memory.protectedPart_readBytes (m : Memory) (n : Nat) :
    protectedPart (m.readBytes 0 n) = m.readBytes 0 (n - 2) := by
  rw [protectedPart, Memory.take_readBytes, Memory.length_readBytes, min_eq_left (Nat.sub_le ..)]

/-- The body of a frame in a buffer lies at the offsets from 3 on (10_state.md R35). -/
theorem Memory.messageBody_readBytes (m : Memory) (n : Nat) : messageBody (m.readBytes 0 n) = m.readBytes 3 (n - 5) := by
  rw [messageBody, Memory.protectedPart_readBytes, Memory.drop_readBytes, Nat.sub_sub]

/-- A body of one byte is read from offset 3 too, so every message is the message body of its frame (40_frame_codec.md R124). -/
theorem eq_messageBody_of_classifyFrame {inc : Byte} {bytes m : List Byte} (h6 : Config.minLen ≤ bytes.length)
    (h : classifyFrame inc bytes = .message m) : m = messageBody bytes := by
  rcases Nat.eq_or_lt_of_le h6 with h6 | h6
  · have hlen : (messageBody bytes).length = 1 := by rw [length_messageBody, ← h6, Config.minLen]
    obtain ⟨d, hd⟩ := List.length_eq_one_iff.mp hlen
    have hd3 : bytes.getD 3 0 = d := by
      rw [← getD_messageBody (bytes := bytes) (k := 0) (by omega), hd]
      rfl
    rw [classifyFrame_six h6.symm, hd3] at h
    split_ifs at h
    rw [hd]
    exact (Response.message.inj h).symm
  · rw [classifyFrame_long h6] at h
    exact (Response.message.inj h).symm

/-- What validation accepts is a frame of at least six bytes, classified (40_frame_codec.md R120 to R124). -/
theorem classifyFrame_of_validateResponse {inc a : Byte} {bytes : List Byte} {r : Response}
    (h : validateResponse inc bytes a = .ok r) : Config.minLen ≤ bytes.length ∧ classifyFrame inc bytes = r := by
  unfold validateResponse at h
  split_ifs at h with _ _ _ h6 _
  exact ⟨Nat.le_of_not_lt h6, Except.ok.inj h⟩

/-- The message received is in the buffer, between the head and the CRC field (10_state.md R35). -/
theorem State.message_of_messageReceived {s : State} {m : List Byte} (h : s.messageReceived = some m) :
    m = s.rxbuf.readBytes 3 (s.rxLen.toNat - 5) := by
  obtain ⟨-, hv⟩ := State.validated_of_messageReceived h
  obtain ⟨h6, hclass⟩ := classifyFrame_of_validateResponse hv
  rw [eq_messageBody_of_classifyFrame h6 hclass]
  exact s.rxbuf.messageBody_readBytes s.rxLen.toNat

/-- The row of the ACK frame, where it is sent (42_link_protocol.md R174, R176). -/
theorem exec_masterAck {s : State} {m : List Byte} (ho : s.opened = true) (h : s.messageReceived = some m) :
    exec (.masterAck s.addr) s = .next (s.sendAck m) := by
  change execMasterAck s.addr s = _
  simp only [execMasterAck, ho, h, Bool.true_eq_false, if_false, if_true]

/-- Settles O31: the row sends the ACK for the message in the buffer, which is written or not. -/
theorem masterAckSent : Obligations.MasterAckSent := by
  intro s msg ho h hm
  rw [exec_masterAck ho h]
  exact ⟨State.message_of_messageReceived h, fun hw =>
    ⟨_, Memory.loaded_sixByteFrame hm _ _, congrArg _ (State.sendAck_sent hm hw msg)⟩, fun k rest hw =>
    ⟨_, Memory.loaded_sixByteFrame hm _ _, congrArg _ (State.sendAck_failed hm hw msg)⟩⟩

/-! ## Acceptance, and the frames out of place -/

theorem accept_ready {s : State} (hs : s.ready) (op : Op) (cmd : Byte) (payload : List Byte) :
    accept op cmd payload s = .next { s with
      phase := .delay, curOp := op, curCmd := cmd, curPayload := payload, pendErr := none, res := none, rxCount := 0 } :=
  State.whenIdle_idle _ hs.1 hs.2

/-- Settles O22: each of the eight operations is `accept` of its command, and a ready block accepts (`accept_ready`). -/
theorem exchangeAccepted : Obligations.ExchangeAccepted := by
  intro s cmd payload hs accepted
  have row {i : Instr} {op : Op} {c : Byte} {p : List Byte} (hi : exec i s = accept op c p s) : accepted i op c p :=
    ⟨none, hi.trans (accept_ready hs op c p)⟩
  exact ⟨row rfl, row rfl, row rfl, row rfl, row rfl, row rfl, row rfl, row rfl⟩

/-- A request row goes on only with that request in flight (42_link_protocol.md R180). -/
theorem sendRequest_next {cmd a : Byte} {s t : State} (h : sendRequest cmd a s = .next t) :
    s.opened = true ∧ s.phase = .delay ∧ s.curCmd = cmd ∧ s.curPayload = [] ∧ a = s.addr := by
  rcases sendRequest_cases cmd a s with ⟨-, h'⟩ | ⟨ho, hp, hc, he, ha, -⟩ | ⟨-, -, h'⟩
  · simp [h'] at h
  · exact ⟨ho, hp, hc, he, ha⟩
  · simp [h'] at h

theorem exec_masterAck_next {a : Byte} {s t : State} (h : exec (.masterAck a) s = .next t) :
    s.opened = true ∧ s.messageReceived ≠ none ∧ a = s.addr := by
  change execMasterAck a s = _ at h
  cases hm : s.messageReceived with
  | none =>
    simp only [execMasterAck, hm] at h
    split_ifs at h
  | some m =>
    simp only [execMasterAck, hm] at h
    split_ifs at h with ho ha
    exact ⟨by simpa using ho, by simp, ha⟩

theorem exec_masterNack_next {a : Byte} {s t : State} (h : exec (.masterNack a) s = .next t) :
    s.opened = true ∧ s.receiving ∧ s.pendErr ≠ none ∧ a = s.addr := by
  change execMasterNack a s = _ at h
  cases he : s.pendErr with
  | none =>
    simp only [execMasterNack, he] at h
    split_ifs at h
  | some e =>
    simp only [execMasterNack, he] at h
    split_ifs at h with ho hr
    exact ⟨by simpa using ho, hr.1, by simp, hr.2⟩

/-- Settles O33: a request row by what `sendRequest` looks at first, the other two by the message or the error they are sent
for. -/
theorem masterFramesNowhereElse : Obligations.MasterFramesNowhereElse := by
  intro s t a
  refine ⟨fun i hi h => ?request, exec_masterAck_next, exec_masterNack_next⟩
  simp only [List.mem_cons, List.not_mem_nil, or_false] at hi
  rcases hi with rfl | rfl | rfl | rfl | rfl | rfl | rfl <;> exact sendRequest_next h

end Sys2Proof.Machine
end

section
/-! SUPPORT. `HuntForSync`, `ReceiveAddress`, `ReceiveLength`, `ReceiveBody`, `ReceiveLastByte` and `MessageResponses`: a byte
that is there in time is taken in the block's own step, and what it does depends on `rx_count`. -/

namespace Sys2Proof.Machine

/-! ## The step that takes a byte -/

/-- One byte stored is there, and the rest of the buffer is unchanged. -/
theorem Memory.stored_write {m : Memory} (hm : m.wf) {a : Nat} (ha : a < Config.maxFrame) (b : Byte) :
    m.stored a b (m.write a b) :=
  ⟨Memory.wf_write hm ha b, Memory.read_write_same hm.1 a b, fun _ hk => Memory.read_write_other m b hk⟩

section
variable {s : State} {b : Byte}

/-- With a byte there in time the block's own step takes it (42_link_protocol.md R168). -/
theorem step_takesByte {rest : List Byte} (hs : s.script = []) (ho : s.opened = true) (hr : s.receiving)
    (hq : s.inQueue = b :: rest) (hd : s.now < s.rxDeadline) :
    step s = takeByte b { s with inQueue := rest, rxDeadline := s.nextDeadline } := by
  obtain ⟨-, -, hread, -⟩ := readTimeouts s hs ho hr
  exact hread b rest hq hd

theorem takeByte_address (hp : s.phase = .receivingFrame) (hc : s.rxCount = 1) (b : Byte) :
    takeByte b s = .next (if b = s.addr then (s.storeRx b).runCrc b
      else ((s.storeRx b).runCrc b).failRx (.addressMismatch b)) := by
  simp only [takeByte, hp, hc, if_true]
  split_ifs <;> rfl

theorem takeByte_declared (hp : s.phase = .receivingFrame) (hc : s.rxCount = 2) (b : Byte) :
    takeByte b s = .next (if b.toNat < Config.minLen
      then State.failRx { (s.storeRx b).runCrc b with rxLen := b } (.frameTooShort b.toNat)
      else { (s.storeRx b).runCrc b with rxLen := b }) := by
  simp only [takeByte, hp, hc, OfNat.ofNat_ne_one, if_false, if_true]
  split_ifs <;> rfl

theorem takeByte_inside (hp : s.phase = .receivingFrame) (h3 : 3 ≤ s.rxCount) (hl : s.rxCount < s.rxLen.toNat) (b : Byte) :
    takeByte b s = .next (if s.rxCount + 1 = s.rxLen.toNat then finishFrame (s.storeBody b) else s.storeBody b) := by
  have h1 : s.rxCount ≠ 1 := by omega
  have h2 : s.rxCount ≠ 2 := by omega
  simp only [takeByte, hp, h1, h2, h3, hl, and_self, if_false, if_true, State.storeBody_rxCount,
    State.storeBody_rxLen]
  split_ifs <;> rfl

/-- The registers after the second or third byte (R170, R171). -/
theorem State.runCrc_storeRx {n : Nat} (hc : s.rxCount = n) (b : Byte) :
    (s.storeRx b).runCrc b =
      { s with rxbuf := s.rxbuf.write n b, rxCount := n + 1, crc := crcUpdate s.crc b } := by
  subst hc
  rfl

/-- The registers after a byte from the fourth on (42_link_protocol.md R172). -/
theorem State.storeBody_eq (s : State) (b : Byte) :
    s.storeBody b = { s with
      rxbuf := s.rxbuf.write s.rxCount b, rxCount := s.rxCount + 1
      crc := if s.rxCount < s.rxLen.toNat - 2 then crcUpdate s.crc b else s.crc } := by
  unfold State.storeBody
  split_ifs <;> rfl

end

/-- Settles O36: before `SYNC` the byte is dropped, `SYNC` starts the frame (`takeByte_waitingEcho`). -/
theorem huntForSync : Obligations.HuntForSync := by
  intro s b rest hs ho hp hq hd
  rw [step_takesByte hs ho (.inl hp) hq hd, takeByte_waitingEcho (by exact hp)]
  refine ⟨fun hb => by rw [if_neg hb], fun hb hm => ?_⟩
  exact ⟨_, Memory.stored_write hm (by decide) _, by rw [if_pos hb]; rfl⟩

/-- Settles O37: `takeByte_address`. -/
theorem receiveAddress : Obligations.ReceiveAddress := by
  intro s b rest hs ho hp hc hm hq hd
  refine ⟨_, Memory.stored_write hm (by decide) b, ?_⟩
  rw [step_takesByte hs ho (.inr hp) hq hd, takeByte_address (by exact hp) (by exact hc),
    State.runCrc_storeRx (by exact hc)]

/-- Settles O38: `takeByte_declared`. -/
theorem receiveLength : Obligations.ReceiveLength := by
  intro s b rest hs ho hp hc hm hq hd
  refine ⟨_, Memory.stored_write hm (by decide) b, ?_⟩
  rw [step_takesByte hs ho (.inr hp) hq hd, takeByte_declared (by exact hp) (by exact hc),
    State.runCrc_storeRx (by exact hc)]

/-- Settles O39: `takeByte_inside` before the last byte. -/
theorem receiveBody : Obligations.ReceiveBody := by
  intro s b rest hs ho hp h3 hl hm hq hd
  have hmax := s.rxLen.isLt
  refine ⟨_, Memory.stored_write hm (by simp only [Config.maxFrame]; omega) b, ?_⟩
  rw [step_takesByte hs ho (.inr hp) hq hd, takeByte_inside (by exact hp) (by exact h3) (by exact Nat.lt_of_succ_lt hl),
    if_neg (by exact Nat.ne_of_lt hl), State.storeBody_eq]

/-! ## The whole frame -/

/-- The number carried by a frame in a buffer (40_frame_codec.md R123). -/
theorem Memory.carriedCrc_readBytes (m : Memory) {n : Nat} (hn : 2 ≤ n) :
    carriedCrc (m.readBytes 0 n) = le16 (m.read (n - 2)) (m.read (n - 1)) := by
  have hbyte (k : Nat) (hk : k < n) : (m.readBytes 0 n).getD k 0 = m.read k := by
    rw [List.getD_eq_getElem _ _ (by simpa using hk), Memory.getElem_readBytes, Nat.zero_add]
  rw [carriedCrc, Memory.length_readBytes, hbyte _ (by omega), hbyte _ (by omega)]

/-- A frame with a wrong CRC fails (42_link_protocol.md R173). -/
theorem finishFrame_badCrc {s : State} {computed carried : Word16} (hc : crc16 (protectedPart s.rxFrame) = computed)
    (hr : carriedCrc s.rxFrame = carried) (h : computed ≠ carried) :
    finishFrame s = s.failRx (.integrityError computed carried) := by
  subst hc hr
  exact if_pos h

/-- A valid frame of class `Message` is acknowledged (R174). -/
theorem finishFrame_message {s : State} {m : List Byte} (hc : crc16 (protectedPart s.rxFrame) = carriedCrc s.rxFrame)
    (hm : classifyFrame s.params.incCmdCode s.rxFrame = .message m) : finishFrame s = s.sendAck m := by
  rcases finishFrame_cases s with ⟨hne, -⟩ | ⟨-, m', hm', hf⟩ | ⟨-, hne, -⟩
  · exact absurd hc hne
  · rw [hf, Response.message.inj (hm'.symm.trans hm)]
  · exact absurd hm (hne m)

/-- Settles O40: the last byte makes the frame whole (`takeByte_inside`), and the frame is in the buffer that holds the byte. -/
theorem receiveLastByte : Obligations.ReceiveLastByte := by
  intro s b rest hs ho hp h3 hl hm hq hd
  have hmax := s.rxLen.isLt
  refine ⟨_, Memory.stored_write hm (by simp only [Config.maxFrame]; omega) b, ?_⟩
  intro n t computed carried r
  have hstep : step s = .next (finishFrame t) := by
    rw [step_takesByte hs ho (.inr hp) hq hd, takeByte_inside (by exact hp) (by exact h3) (by exact Nat.lt_of_succ_le hl.le),
      if_pos (by exact hl), State.storeBody_eq]
    simp only [t, n, hl]
  have hcomputed : crc16 (protectedPart t.rxFrame) = computed := congrArg crc16 (Memory.protectedPart_readBytes _ n)
  have hcarried : carriedCrc t.rxFrame = carried := Memory.carriedCrc_readBytes _ (by change 2 ≤ s.rxLen.toNat; omega)
  refine ⟨fun hc => ?badCrc, fun hc hr => ?bare, fun msg hc hr => ?message⟩
  case badCrc => rw [hstep, finishFrame_badCrc hcomputed hcarried hc]
  case bare =>
    have hbare (m : List Byte) : r ≠ .message m := by
      simp only [List.mem_cons, List.not_mem_nil, or_false] at hr
      rcases hr with hr | hr | hr <;> simp [hr]
    rw [hstep, finishFrame_bare (hcomputed.trans (hc.trans hcarried.symm)) (r := r) rfl hbare]
    rfl
  case message => rw [hstep, finishFrame_message (hcomputed.trans (hc.trans hcarried.symm)) hr]

/-! ## A whole message -/

/-- A message from `ADDR` that comes to a hunting block is read and acknowledged (R172 to R174). -/
theorem State.hunts.receiveBytes_messageFrame {s : State} (h : s.hunts) {data : List Byte} (h1 : 1 ≤ data.length)
    (h250 : data.length ≤ 250)
    (hm : classifyFrame s.params.incCmdCode (responseFrame s.addr data) = .message data) :
    receiveBytes (responseFrame s.addr data) s =
      .next ((s.frameRead data (crc16 (responseBody s.addr data))).sendAck data) := by
  have hframe : (s.frameRead data (crc16 (responseBody s.addr data))).rxFrame = responseFrame s.addr data :=
    State.rxFrame_frameRead h.rxForm h250 _
  rw [Laws.responseFrame_eq, h.receiveBytes_wholeFrame h1 h250, finishFrame_message ?crc ?kind]
  case crc => rw [hframe, responseFrame, protectedPart_sealFrame, carriedCrc_sealFrame]
  case kind => rw [hframe]; exact hm

/-- Settles O43: either row is the slave's frame of its body, of class `Message`; the ACK is written or not. -/
theorem messageResponses : Obligations.MessageResponses := by
  intro s data i h hi body ack
  obtain ⟨h1, h250, hm, hexec⟩ : 1 ≤ data.length ∧ data.length ≤ 250 ∧
      classifyFrame s.params.incCmdCode (responseFrame s.addr data) = .message data ∧
      exec i s = receiveBytes (responseFrame s.addr data) s := by
    rcases hi with ⟨d, rfl, h0, hF, hd, rfl⟩ | ⟨h2, h250, rfl⟩
    · exact ⟨le_rfl, by simp, by rw [classifyFrame_responseFrame_one, if_neg h0, if_neg hF, if_neg hd], rfl⟩
    · exact ⟨by omega, h250, classifyFrame_responseFrame_long h2, rfl⟩
  refine ⟨_, _, Memory.loaded_writeBytes h.rxForm (by simp [body, Config.maxFrame]; omega),
    Memory.loaded_sixByteFrame h.txForm _ _, ?_⟩
  rw [hexec, h.receiveBytes_messageFrame h1 h250 hm, State.frameRead, h.midFrame_all]
  refine ⟨fun hw => ?written, fun k rest hw => ?notWritten⟩
  case written =>
    rw [State.sendAck_sent (by exact h.txForm) (by exact hw)]
    rfl
  case notWritten =>
    rw [State.sendAck_failed (by exact h.txForm) (by exact hw)]
    rfl

end Sys2Proof.Machine
end

section
/-! SUPPORT. `BlockNeverStuck` and `PhaseTransitions`: in a state that meets the invariant none of the block's own steps comes to
a place without a transition; and what changes `state` in such a step is a row of 42_link_protocol.md R180, by the way in which
the receive phase, the drain, the floor or the break is left. -/

namespace Sys2Proof.Machine

/-! ## No step without a transition -/

theorem takeByte_waitingEcho_next {s : State} (hp : s.phase = .waitingEcho) (b : Byte) : ∃ t, takeByte b s = .next t :=
  ⟨_, takeByte_waitingEcho hp b⟩

/-- In a frame `rx_count` runs from 1 and, once the length is known, below it: there is a place for the byte (10_state.md R27). -/
theorem takeByte_receivingFrame_next {s : State} (hp : s.phase = .receivingFrame) (h1 : 1 ≤ s.rxCount)
    (h3 : 3 ≤ s.rxCount → s.rxCount < s.rxLen.toNat) (b : Byte) : ∃ t, takeByte b s = .next t := by
  obtain hc | hc | hc : s.rxCount = 1 ∨ s.rxCount = 2 ∨ 3 ≤ s.rxCount := by omega
  · exact ⟨_, takeByte_address hp hc b⟩
  · exact ⟨_, takeByte_declared hp hc b⟩
  · exact ⟨_, takeByte_inside hp hc (h3 hc) b⟩

theorem State.Inv.takeByte_next {s : State} (h : s.Inv) (hr : s.receiving) (b : Byte) : ∃ t, takeByte b s = .next t := by
  rcases hr with hp | hp
  · exact takeByte_waitingEcho_next hp b
  · obtain ⟨h1, -, -, h3, -⟩ := h.framed hp
    exact takeByte_receivingFrame_next hp h1 (fun hc => (h3 hc).2.2) b

/-- The invariant does not look at the input queue, the deadline or the tie counter. -/
theorem State.Inv.receiveStep_next {s : State} (h : s.Inv) (hr : s.receiving) : ∃ t, receiveStep s = .next t := by
  rcases receiveStep_cases s with ⟨b, rest, -, -, hs⟩ | ⟨b, rest, -, -, -, hs⟩ | ⟨b, rest, -, -, -, hs⟩ | ⟨-, -, hs⟩ |
    ⟨-, -, hs⟩ <;> rw [hs]
  · exact State.Inv.takeByte_next (s := s.takeInput rest) { h with } hr b
  · exact State.Inv.takeByte_next (s := State.takeInput { s with ties := s.ties + 1 } rest) { h with } hr b
  · exact ⟨_, rfl⟩
  · exact ⟨_, rfl⟩
  · exact ⟨_, rfl⟩

/-- While a NACK drains there is an error to return (10_state.md R34). -/
theorem State.Inv.observeDrain_next {s : State} (h : s.Inv)
    (hp : s.phase = .sending ∨ s.phase = .ackSent ∨ s.phase = .nackSent) : ∃ t, observeDrain s = .next t := by
  rcases observeDrain_cases s with ⟨-, hs⟩ | ⟨-, hs⟩ <;> rw [hs]
  · rcases hp with hp | hp | hp
    · exact ⟨_, drained_sending hp⟩
    · exact ⟨_, drained_ackSent hp⟩
    · obtain ⟨e, he⟩ := Option.ne_none_iff_exists'.mp (h.nacked hp)
      exact ⟨_, drained_nackSent hp he⟩
  · exact ⟨_, rfl⟩

/-- The floor is waited for, or the request is issued; the one request without a meaning has 250 payload bytes (40_frame_codec.md
R117). -/
theorem observeFloor_next_or_payload250 (s : State) :
    (∃ t, observeFloor s = .next t) ∨
      (observeFloor s = .refused .payload250 ∧ s.curPayload.length = 250 ∧ s.floorMet) := by
  rcases observeFloor_cases s with ⟨hf, hs⟩ | ⟨-, hs⟩ <;> rw [hs]
  · rcases issueRequest_cases s with ⟨-, hi⟩ | ⟨hl, hi⟩ | ⟨-, -, hi⟩ | ⟨-, -, k, hi⟩
    · exact .inl ⟨_, hi⟩
    · exact .inr ⟨hi, hl, hf⟩
    · exact .inl ⟨_, hi⟩
    · exact .inl ⟨_, hi⟩
  · exact .inl ⟨_, rfl⟩

theorem observeBreak_next (s : State) : ∃ t, observeBreak s = .next t := by
  rcases observeBreak_cases s with ⟨-, hs⟩ | ⟨-, hs⟩ <;> exact ⟨_, hs⟩

/-- Settles O53: the block's own step by `state` (`blockMove_cases`), each of its functions having a next state. -/
theorem blockNeverStuck : Obligations.BlockNeverStuck := by
  intro s h hs
  rw [step_of_script_nil hs]
  rcases blockMove_cases s with ⟨-, hm⟩ | ⟨-, -, hm⟩ | ⟨-, hp, hm⟩ | ⟨-, hp, hm⟩ | ⟨-, hr, hm⟩ | ⟨-, -, hm⟩ <;> rw [hm]
  · exact .inl ⟨_, rfl⟩
  · exact .inl ⟨_, rfl⟩
  · exact (observeFloor_next_or_payload250 s).imp id fun ⟨ht, hl, hf⟩ => ⟨ht, hp, hl, hf⟩
  · exact .inl (h.observeDrain_next hp)
  · exact .inl (h.receiveStep_next hr)
  · exact .inl (observeBreak_next s)

/-! ## The rows of the receive phase -/

/-- `u` is `s` in the middle of a read: the registers and inputs that the rows speak of are those of `s`. -/
structure State.ReadsAs (s u : State) : Prop where
  writeFaults : u.writeFaults = s.writeFaults
  params : u.params = s.params
  curOp : u.curOp = s.curOp

section
variable {s u : State} (hu : s.ReadsAs u)
include hu

theorem State.ReadsAs.writeSucceeds : u.writeSucceeds = s.writeSucceeds := by
  simp only [State.writeSucceeds, hu.writeFaults]

/-- `fail_rx` is one of three rows (42_link_protocol.md R175, R180). -/
theorem State.ReadsAs.failRx_row {e : Err} (hf : FailsWith s e) : TransitionRow s (u.failRx e) := by
  rcases u.failRx_cases e with ⟨rfl, hn, h⟩ | ⟨hn, h⟩ <;> rw [h]
  · exact .quietTimeout hf (hu.params ▸ hn) rfl rfl
  · have hn' : e = .readTimeout → s.params.nackOnTimeout = true := fun he => by
      simpa [he, hu.params] using hn
    rcases (u.setPendErr e).sendNack_cases e with ⟨hw, h⟩ | ⟨hw, k, h⟩ <;> rw [h]
    · exact .nackWritten e hf hn' (hu.writeSucceeds ▸ hw) rfl rfl
    · exact .nackNotWritten e hf hn' (hu.writeSucceeds ▸ hw) rfl rfl

/-- A whole frame is one of the rows of R173 and R174. -/
theorem State.ReadsAs.finishFrame_row {b : Byte} (hl : s.lastByteIs b) (hframe : u.rxFrame = s.frameWith b) :
    TransitionRow s (finishFrame u) := by
  have hinc : u.params.incCmdCode = s.params.incCmdCode := by rw [hu.params]
  rcases finishFrame_cases u with ⟨hc, h⟩ | ⟨hc, m, hm, h⟩ | ⟨hc, hm, h⟩ <;> rw [hframe] at hc <;> rw [h]
  · rw [hframe]
    exact hu.failRx_row (.integrity b hl hc)
  · have hv : s.validatedAs (.message m) := ⟨b, hl, hc, by rw [← hframe, ← hinc, hm]⟩
    rcases u.sendAck_cases m with ⟨hw, h⟩ | ⟨hw, k, h⟩ <;> rw [h]
    · exact .ackWritten m hv (hu.writeSucceeds ▸ hw) rfl rfl
    · exact .ackNotWritten m hv (hu.writeSucceeds ▸ hw) rfl rfl
  · rw [hframe, hinc] at hm ⊢
    refine .bareResponse _ ⟨b, hl, hc, rfl⟩ ?_ rfl ?_
    · cases hr : classifyFrame s.params.incCmdCode (s.frameWith b) with
      | message m => exact absurd hr (hm m)
      | ack | nack | incrementCommand => simp
    · rw [← hu.params, ← hu.curOp]
      rfl

end

/-- From `s` to `t` the register `state` stays, or a row of the table changes it. -/
abbrev State.FollowsTable (s t : State) : Prop := t.phase = s.phase ∨ TransitionRow s t

/-! In what follows the byte `b` is taken off the queue of `s` in time, or on a tie that the counter `n` has counted already
(assumption log 2). -/

section
variable {s t : State} {b : Byte} {rest : List Byte} {n : Nat}

theorem takeByte_waitingEcho_row (hp : s.phase = .waitingEcho) (hq : s.inQueue = b :: rest)
    (h : takeByte b (State.takeInput { s with ties := n } rest) = .next t) : s.FollowsTable t := by
  rw [takeByte_waitingEcho (by exact hp), Host.Outcome.next.injEq] at h
  subst h
  split_ifs with hb
  · subst hb
    exact .inr (.syncRead hp (by rw [hq]; rfl) rfl)
  · exact .inl rfl

theorem takeByte_receivingFrame_row (hp : s.phase = .receivingFrame) (hq : s.inQueue = b :: rest)
    (h : takeByte b (State.takeInput { s with ties := n } rest) = .next t) : s.FollowsTable t := by
  have hhead : s.inQueue.head? = some b := by rw [hq]; rfl
  rcases takeByte_receivingFrame (s := State.takeInput { s with ties := n } rest) hp b with ⟨-, -, hs⟩ | ⟨hc, hb, hs⟩ |
    ⟨-, -, hs⟩ | ⟨hc, hb, hs⟩ | ⟨-, -, hs⟩ | ⟨h3, hl, hs⟩ | ⟨-, hs⟩ <;> rw [hs] at h <;>
    simp only [Host.Outcome.next.injEq, reduceCtorEq] at h <;> subst h
  · exact .inl rfl
  · exact .inr (State.ReadsAs.failRx_row (by exact ⟨rfl, rfl, rfl⟩) (.address b hp hhead hc hb))
  · exact .inl rfl
  · exact .inr (State.ReadsAs.failRx_row (by exact ⟨rfl, rfl, rfl⟩) (.length b hp hhead hc hb))
  · exact .inl (State.storeBody_phase _ _)
  · rw [State.storeBody_eq]
    exact .inr (State.ReadsAs.finishFrame_row (by exact ⟨rfl, rfl, rfl⟩) ⟨hp, hhead, h3, hl⟩ rfl)

theorem takeByte_row (hr : s.receiving) (hq : s.inQueue = b :: rest)
    (h : takeByte b (State.takeInput { s with ties := n } rest) = .next t) : s.FollowsTable t := by
  rcases hr with hp | hp
  · exact takeByte_waitingEcho_row hp hq h
  · exact takeByte_receivingFrame_row hp hq h

/-- A read of the receive phase leaves `state`, or is a row; on a tie it is a byte or a timeout (assumption log 2). -/
theorem receiveStep_row (hr : s.receiving) (h : receiveStep s = .next t) : s.FollowsTable t := by
  rcases receiveStep_cases s with ⟨b, rest, hq, -, hs⟩ | ⟨b, rest, hq, -, -, hs⟩ | ⟨b, rest, -, hd, -, hs⟩ | ⟨-, hd, hs⟩ |
    ⟨-, -, hs⟩ <;> rw [hs] at h
  · exact takeByte_row hr hq h
  · exact takeByte_row hr hq h
  · exact .inr (Host.Outcome.next.inj h ▸ State.ReadsAs.failRx_row (by exact ⟨rfl, rfl, rfl⟩) (.timeout hr hd))
  · exact .inr (Host.Outcome.next.inj h ▸ State.ReadsAs.failRx_row (by exact ⟨rfl, rfl, rfl⟩) (.timeout hr hd))
  · exact .inl (congrArg State.phase (Host.Outcome.next.inj h).symm)

/-! ## The other rows -/

theorem observeFloor_row (hp : s.phase = .delay) (h : observeFloor s = .next t) : s.FollowsTable t := by
  rcases observeFloor_cases s with ⟨hf, hs⟩ | ⟨-, hs⟩ <;> rw [hs] at h
  · rcases issueRequest_cases s with ⟨hl, hi⟩ | ⟨-, hi⟩ | ⟨hl, hw, hi⟩ | ⟨hl, hw, k, hi⟩ <;> rw [hi] at h <;>
      simp only [Host.Outcome.next.injEq, reduceCtorEq] at h <;> subst h
    · exact .inr (.payloadTooLarge hp hf hl rfl rfl rfl)
    · exact .inr (.requestWritten hp hf (Nat.le_of_lt_succ hl) hw rfl rfl)
    · exact .inr (.requestNotWritten hp hf (Nat.le_of_lt_succ hl) hw rfl rfl rfl)
  · exact .inl (congrArg State.phase (Host.Outcome.next.inj h).symm)

theorem observeDrain_row (h : observeDrain s = .next t) : s.FollowsTable t := by
  rcases observeDrain_cases s with ⟨hq, hs⟩ | ⟨-, hs⟩ <;> rw [hs] at h
  · rcases drained_cases s with ⟨hp, hd⟩ | ⟨hp, hd⟩ | ⟨hp, e, he, hd⟩ | ⟨-, -, hd⟩ | ⟨-, -, -, hd⟩ <;> rw [hd] at h <;>
      simp only [Host.Outcome.next.injEq, reduceCtorEq] at h <;> subst h
    · exact .inr (.requestDrained hp hq rfl)
    · exact .inr (.ackDrained hp hq rfl rfl)
    · exact .inr (.nackDrained e hp hq he rfl rfl)
  · exact .inl (congrArg State.phase (Host.Outcome.next.inj h).symm)

theorem observeBreak_row (hp : s.phase = .breaking) (h : observeBreak s = .next t) : s.FollowsTable t := by
  rcases observeBreak_cases s with ⟨hb, hs⟩ | ⟨-, hs⟩ <;> rw [hs] at h <;> obtain rfl := Host.Outcome.next.inj h
  · exact .inr (.breakEnded hp hb rfl rfl rfl)
  · exact .inl rfl

theorem blockMove_row (h : blockMove s = .next t) : s.FollowsTable t := by
  rcases blockMove_cases s with ⟨-, hm⟩ | ⟨-, -, hm⟩ | ⟨-, hp, hm⟩ | ⟨-, -, hm⟩ | ⟨-, hr, hm⟩ | ⟨-, hp, hm⟩ <;> rw [hm] at h
  · exact .inl (congrArg State.phase (Host.Outcome.next.inj h).symm)
  · exact .inl (congrArg State.phase (Host.Outcome.next.inj h).symm)
  · exact observeFloor_row hp h
  · exact observeDrain_row h
  · exact receiveStep_row hr h
  · exact observeBreak_row hp h

/-! ## The table by `state` alone -/

/-- What fails in the receive phase, fails in it (42_link_protocol.md R175). -/
theorem FailsWith.receiving {e : Err} (h : FailsWith s e) : s.receiving := by
  cases h with
  | timeout hr => exact hr
  | address _ hp => exact .inr hp
  | length _ hp => exact .inr hp
  | integrity _ hl => exact .inr hl.1

/-- From the receive phase `Idle` and `NackSent` can be next. -/
theorem State.receiving.mem_next (hr : s.receiving) (ht : t.phase = .nackSent ∨ t.phase = .idle) :
    t.phase ∈ s.phase.next := by
  rcases hr with hp | hp <;> rcases ht with ht | ht <;> simp [hp, ht, Phase.next]

theorem State.validatedAs.receivingFrame {r : Response} (h : s.validatedAs r) : s.phase = .receivingFrame := by
  obtain ⟨b, ⟨hp, -⟩, -⟩ := h
  exact hp

/-- Each row goes from its state to a state that the table gives for it. -/
theorem TransitionRow.mem_next (h : TransitionRow s t) : t.phase ∈ s.phase.next := by
  cases h with
  | payloadTooLarge hp _ _ _ ht => simp [hp, ht, Phase.next]
  | requestWritten hp _ _ _ _ ht => simp [hp, ht, Phase.next]
  | requestNotWritten hp _ _ _ _ ht => simp [hp, ht, Phase.next]
  | requestDrained hp _ ht => simp [hp, ht, Phase.next]
  | syncRead hp _ ht => simp [hp, ht, Phase.next]
  | bareResponse _ hv _ ht => simp [hv.receivingFrame, ht, Phase.next]
  | ackWritten _ hv _ ht => simp [hv.receivingFrame, ht, Phase.next]
  | ackNotWritten _ hv _ ht => simp [hv.receivingFrame, ht, Phase.next]
  | nackWritten _ hf _ _ ht => exact hf.receiving.mem_next (.inl ht)
  | nackNotWritten _ hf _ _ ht => exact hf.receiving.mem_next (.inr ht)
  | quietTimeout hf _ ht => exact hf.receiving.mem_next (.inr ht)
  | ackDrained hp _ ht => simp [hp, ht, Phase.next]
  | nackDrained _ hp _ _ ht => simp [hp, ht, Phase.next]
  | breakEnded hp _ _ ht => simp [hp, ht, Phase.next]

theorem Phase.mem_next_self (p : Phase) : p ∈ p.next := by cases p <;> simp [Phase.next]

end

/-- Settles O55: the block's own step stays in its state or is a row (`blockMove_row`), and a row leads where the table says. -/
theorem phaseTransitions : Obligations.PhaseTransitions := by
  intro s t _ hs h
  rw [step_of_script_nil hs] at h
  rcases blockMove_row h with hp | hrow
  · exact ⟨hp ▸ s.phase.mem_next_self, fun hne => absurd hp hne⟩
  · exact ⟨hrow.mem_next, fun _ => hrow⟩

end Sys2Proof.Machine
end

section
/-! SUPPORT. `WholeExchange`: what each of the nine moves does, then the two halves of the exchange, the request up to the hunt
for `SYNC` and the answer up to the result. -/

namespace Sys2Proof.Machine

/-! ## The moves -/

theorem runTo_next {s u : State} (h : step s = .next u) (n : Nat) : runTo (n + 1) s = runTo n u := by
  simp only [runTo, h]

theorem runTo_add {m : Nat} {s u : State} (h : runTo m s = some u) (n : Nat) : runTo (m + n) s = runTo n u := by
  induction m generalizing s with
  | zero =>
    rw [Option.some.inj h, Nat.zero_add]
  | succ m ih =>
    rw [Nat.succ_add]
    cases hs : step s with
    | next v =>
      rw [runTo_next hs] at h ⊢
      exact ih h
    | fault | refused => simp [runTo, hs] at h

/-- One more step of a run that is known to end well. -/
theorem runTo_ends_of_step {s u : State} {n : Nat} {P : State → Prop} (h : step s = .next u)
    (hu : ∃ t, runTo n u = some t ∧ P t) : ∃ t, runTo (n + 1) s = some t ∧ P t := by
  rwa [runTo_next h]

section
variable {s : State} {rest : List Move}

theorem step_exchange {cmd : Byte} {payload : List Byte} (hs : s.script = .present (.exchange cmd payload) :: rest)
    (h : s.ready) :
    step s = .next { s with
      script := rest, phase := .delay, curOp := .exchange, curCmd := cmd, curPayload := payload, pendErr := none, res := none
      rxCount := 0 } := by
  rw [step_of_script_cons hs]
  exact accept_ready (s := { s with script := rest }) h .exchange cmd payload

theorem step_advance {ms : Nat} (hs : s.script = .advance ms :: rest) :
    step s = .next { s with script := rest, now := s.now + ms } := step_of_script_cons hs

theorem step_drain {n : Nat} (hs : s.script = .drain n :: rest) :
    step s = .next { s with script := rest, outQueue := s.outQueue.drop n, line := s.line ++ s.outQueue.take n } :=
  step_of_script_cons hs

/-- A drain that reaches the whole queue empties it onto the line (20_memory.md R57). -/
theorem step_drainAll {n : Nat} (hs : s.script = .drain n :: rest) (hn : s.outQueue.length ≤ n) :
    step s = .next { s with script := rest, outQueue := [], line := s.line ++ s.outQueue } := by
  rw [step_drain hs, List.drop_of_length_le hn, List.take_of_length_le hn]

/-- The block's own turn in `Delay`, the floor met (42_link_protocol.md R162 to R165). -/
theorem step_issue (hs : s.script = .observe :: rest) (ho : s.opened = true) (hp : s.phase = .delay) (hf : s.floorMet)
    (hl : s.curPayload.length ≤ 249) (hm : s.txbuf.wf) (hw : s.writeSucceeds = true) :
    step s = .next { s.requestLoaded s.request with
      script := rest, outQueue := s.outQueue ++ s.request, writeFaults := s.writeFaults.tail, phase := .sending } := by
  rw [step_of_script_cons hs]
  change blockMove { s with script := rest } = _
  rw [blockMove_delay (by exact ho) (by exact hp), exec_delayBeforeRequest_delay (by exact ho) (by exact hp),
    observeFloor_met (by exact hf), issueRequest_sent (by exact hl) (by exact hm) (by exact hw)]
  rfl

/-- The block's own turn in a state that waits for the drain, with nothing pending (R166, R178). -/
theorem step_drained (hs : s.script = .observe :: rest) (ho : s.opened = true)
    (hp : s.phase = .sending ∨ s.phase = .ackSent ∨ s.phase = .nackSent) (hq : s.outQueue = []) :
    step s = drained { s with script := rest } := by
  rw [step_of_script_cons hs]
  change blockMove { s with script := rest } = _
  rw [blockMove_draining (by exact ho) (by exact hp), exec_waitForTransmitComplete_draining (by exact ho) (by exact hp),
    observeDrain_empty (by exact hq)]

end

/-! ## The two halves -/

/-- `t` hunts for the answer to the exchange that `s` was presented with, `n` ms after its request was issued and drained. -/
structure State.AwaitsAnswer (s : State) (request : List Byte) (n : Nat) (rest : List Move) (t : State) : Prop where
  hunts : t.hunts
  script : t.script = rest
  addr : t.addr = s.addr
  inExchange : t.curOp = .exchange
  line : t.line = s.line ++ request
  outEmpty : t.outQueue = []
  stamp : t.lastReq = s.now + 150
  now : t.now = s.now + 150 + n
  noFaults : t.writeFaults = []

/-- The request of up to 249 payload bytes goes out and the block hunts for the answer (42_link_protocol.md R160 to R168). -/
theorem runTo_awaitsAnswer {s : State} {cmd : Byte} {payload : List Byte} {n : Nat} {rest : List Move} (h : s.Inv)
    (hr : s.ready) (hout : s.outQueue = []) (hin : s.inQueue = []) (hw : s.writeFaults = []) (hl : payload.length ≤ 249)
    (hn : n < 2000)
    (hs : s.script =
      .present (.exchange cmd payload) :: .advance 150 :: .observe :: .drain 255 :: .observe :: .advance n :: rest) :
    ∃ t, runTo 6 s = some t ∧ s.AwaitsAnswer (requestFrame s.addr cmd payload) n rest t := by
  have hfloor : s.lastReq + 150 ≤ s.now + 150 := Nat.add_le_add_right h.stampPast 150
  have hlen : (s.outQueue ++ requestFrame s.addr cmd payload).length ≤ 255 := by simp [hout]; omega
  have hwrite : s.writeSucceeds = true := by simp [State.writeSucceeds, hw]
  refine runTo_ends_of_step (step_exchange hs hr) ?_
  refine runTo_ends_of_step (step_advance (by exact rfl)) ?_
  refine runTo_ends_of_step (step_issue (by exact rfl) (by exact hr.1) (by exact rfl) (by exact hfloor) (by exact hl)
    (by exact h.txForm) (by exact hwrite)) ?_
  refine runTo_ends_of_step (step_drainAll (by exact rfl) (by exact hlen)) ?_
  refine runTo_ends_of_step ((step_drained (by exact rfl) (by exact hr.1) (.inl (by exact rfl)) (by exact rfl)).trans
    (drained_sending (by exact rfl))) ?_
  refine runTo_ends_of_step (step_advance (by exact rfl)) ?_
  refine ⟨_, rfl, ?_⟩
  exact {
    hunts := {
      block := hr.1
      hunting := rfl
      noStale := by simp [State.requestLoaded, State.clearInput, hin]
      early := Nat.add_lt_add_left hn _
      rxForm := h.rxForm
      txForm := Memory.wf_writeBytes h.txForm (by simp [Config.maxFrame]; omega) }
    script := rfl
    addr := rfl
    inExchange := rfl
    line := by
      change s.line ++ (s.outQueue ++ requestFrame s.addr cmd payload) = _
      rw [hout, List.nil_append]
    outEmpty := rfl
    stamp := rfl
    now := rfl
    noFaults := by simp [hw] }

/-- The answer in time is acknowledged (42_link_protocol.md R172 to R178). -/
theorem step_answered {s : State} {body : List Byte} {rest : List Move}
    (hs : s.script = .present (.rspMessage s.addr body) :: rest) (h : s.hunts) (h2 : 2 ≤ body.length)
    (h250 : body.length ≤ 250) (hw : s.writeSucceeds = true) :
    ∃ m m' len c, step s = .next { s with
      script := rest, rxbuf := m, rxLen := len, crc := c, rxDeadline := s.nextDeadline, txbuf := m', txLen := 6
      outQueue := s.outQueue ++ sixByteFrame s.addr 0x00#8, writeFaults := s.writeFaults.tail, phase := .ackSent
      rxCount := 0, message := body } := by
  obtain ⟨m, m', -, -, hsent, -⟩ :=
    messageResponses { s with script := rest } body (.rspMessage s.addr body) { h with } (.inr ⟨h2, h250, rfl⟩)
  rw [step_of_script_cons hs]
  exact ⟨m, m', _, _, hsent hw⟩

/-- The answer, its ACK and the result (R172 to R178). -/
theorem runTo_answered {s : State} {body : List Byte} (hh : s.hunts) (hop : s.curOp = .exchange) (hout : s.outQueue = [])
    (hw : s.writeFaults = []) (h2 : 2 ≤ body.length) (h250 : body.length ≤ 250)
    (hs : s.script = [.present (.rspMessage s.addr body), .drain 6, .observe]) :
    ∃ t, runTo 3 s = some t ∧ t.phase = .idle ∧ t.res = some (.ok (.response (.message body))) ∧
      t.line = s.line ++ sixByteFrame s.addr 0x00#8 ∧ t.lastReq = s.lastReq ∧ t.now = s.now ∧ t.outQueue = [] ∧
      t.inQueue = [] := by
  have hlen : (s.outQueue ++ sixByteFrame s.addr 0x00#8).length ≤ 6 := by simp [hout, sixByteFrame]
  obtain ⟨m, m', len, c, hanswer⟩ := step_answered hs hh h2 h250 (by simp [State.writeSucceeds, hw])
  refine runTo_ends_of_step hanswer ?_
  refine runTo_ends_of_step (step_drainAll (by exact rfl) (by exact hlen)) ?_
  refine runTo_ends_of_step ((step_drained (by exact rfl) (by exact hh.block) (.inr (.inl (by exact rfl))) (by exact rfl)).trans
    (drained_ackSent (by exact rfl))) ?_
  refine ⟨_, rfl, rfl, ?result, ?line, rfl, rfl, rfl, hh.noStale⟩
  case result =>
    change some (decodeFor s.params s.curOp (.message body)) = _
    rw [hop]
    rfl
  case line =>
    change s.line ++ (s.outQueue ++ sixByteFrame s.addr 0x00#8) = _
    rw [hout, List.nil_append]

/-- Settles O59: the first six moves bring the block to the hunt for the answer (`runTo_awaitsAnswer`), the other three to the
result (`runTo_answered`). -/
theorem wholeExchange : Obligations.WholeExchange := by
  intro s cmd payload body n h hr hout hin hw hl h2 h250 hn hs
  obtain ⟨u, hu, hwait⟩ := runTo_awaitsAnswer h hr hout hin hw hl hn hs
  obtain ⟨t, ht, hidle, hres, hline, hstamp, hnow, houtQueue, hinQueue⟩ :=
    runTo_answered hwait.hunts hwait.inExchange hwait.outEmpty hwait.noFaults h2 h250 (hwait.addr ▸ hwait.script)
  refine ⟨t, (runTo_add hu 3).trans ht, hidle, hres, ?_, hstamp.trans hwait.stamp, hnow.trans hwait.now, houtQueue, hinQueue⟩
  rw [hline, hwait.line, hwait.addr]

end Sys2Proof.Machine
end

section
/-! SUPPORT. `CommonRejections`, `StatusDecoding` and `ExpectAckResult`: what each row of the decoder returns, by the result function
of the model it calls, and the cases of `expectMessage`, of the status body and of `ackResult`. -/

namespace Sys2Proof.Machine

/-! ## The rows of the decoder -/

section
variable (r : Response) (s : State)

theorem exec_decodeStatus : exec (.decodeStatus r) s = .next { s with ret := some (.outcome (statusResult r)) } := rfl

theorem exec_decodeBillOptions :
    exec (.decodeBillOptions r) s =
      .next { s with ret := some (.outcome (billOptionsResult s.params.billOptOffsets r)) } := rfl

theorem exec_unpack24 (b0 b1 b2 : Byte) :
    exec (.unpack24 b0 b1 b2) s = .next { s with ret := some (.bits (unpackBits b0 b1 b2)) } := rfl

theorem exec_decodeCassetteStatus :
    exec (.decodeCassetteStatus r) s = .next { s with ret := some (.outcome (cassettesResult r)) } := rfl

theorem exec_decodeBillTable :
    exec (.decodeBillTable r) s = .next { s with ret := some (.outcome (billTableResult r)) } := rfl

theorem exec_denom (base e : Byte) :
    exec (.denom base e) s = .next { s with ret := some (.denomination (denomOf base e)) } := rfl

theorem exec_decodeInfo :
    exec (.decodeInfo r) s = .next { s with ret := some (.outcome (infoResult s.params.infoLayout r)) } := rfl

theorem exec_expectAck (cmd : Byte) :
    exec (.expectAck cmd r) s = .next { s with ret := some (.outcome (ackResult cmd r)) } := rfl

end

/-! ## The four kinds of a response -/

section
variable (cmd : Byte) (decodeBody : List Byte → Result)

@[simp] theorem expectMessage_ack : expectMessage cmd .ack decodeBody = .err (.unexpectedResponse cmd) := rfl
@[simp] theorem expectMessage_nack : expectMessage cmd .nack decodeBody = .err (.nackReceived cmd) := rfl
@[simp] theorem expectMessage_incrementCommand :
    expectMessage cmd .incrementCommand decodeBody = .err (.incrementCommandReceived cmd) := rfl
@[simp] theorem expectMessage_message (p : List Byte) : expectMessage cmd (.message p) decodeBody = decodeBody p := rfl

end

@[simp] theorem ackResult_ack (cmd : Byte) : ackResult cmd .ack = .ok .unit := rfl
@[simp] theorem ackResult_message (cmd : Byte) (p : List Byte) :
    ackResult cmd (.message p) = .err (.unexpectedMessage cmd p) := rfl
@[simp] theorem ackResult_nack (cmd : Byte) : ackResult cmd .nack = .err (.nackReceived cmd) := rfl
@[simp] theorem ackResult_incrementCommand (cmd : Byte) :
    ackResult cmd .incrementCommand = .err (.incrementCommandReceived cmd) := rfl

/-- Settles O11: five decoders go through `expectMessage`, each with the command of its operation, and the sixth is `ackResult`. -/
theorem commonRejections : Obligations.CommonRejections := by
  intro s cmd gives
  refine ⟨⟨?_, ?_, ?_, ?_, ?_, ?_⟩, ⟨?_, ?_, ?_, ?_, ?_, ?_⟩, ⟨?_, ?_, ?_, ?_, ?_⟩⟩ <;>
    simp only [gives, exec_decodeStatus, exec_decodeBillOptions, exec_decodeBillTable, exec_decodeInfo,
      exec_decodeCassetteStatus, exec_expectAck, statusResult, billOptionsResult, billTableResult, infoResult, cassettesResult,
      expectMessage_ack, expectMessage_nack, expectMessage_incrementCommand, ackResult_nack, ackResult_incrementCommand]

/-- Settles O20: the row is `ackResult`, which has one case for each kind of response. -/
theorem expectAckResult : Obligations.ExpectAckResult := by
  intro s cmd p gives
  refine ⟨?_, ?_, ?_, ?_⟩ <;>
    simp only [gives, exec_expectAck, ackResult_ack, ackResult_message, ackResult_nack, ackResult_incrementCommand]

/-! ## The status of a message body -/

/-- The codes that `decodeStatus` has a case for (43_response_decoder.md R203). -/
def statusCases : List Byte :=
  [0x10#8, 0x13#8, 0x14#8, 0x19#8, 0x1A#8, 0x1C#8, 0x1D#8, 0x41#8, 0x42#8, 0x80#8]

theorem statusOf_of_not_mem_statusCases {c : Byte} (hc : c ∉ statusCases) (more : List Byte) :
    statusOf c more = .ok (.status (.other c)) := by
  simp only [statusCases, List.mem_cons, List.not_mem_nil, or_false, not_or] at hc
  simp only [statusOf, hc, if_false]

/-- Settles O12: the row returns `statusBody` of the body, whose case is the code's. -/
theorem statusDecoding : Obligations.StatusDecoding := by
  intro s more gives
  have row (p : List Byte) {r : Result} (h : statusBody p = r) : gives p r := by
    rw [← h]
    exact exec_decodeStatus (.message p) s
  exact ⟨row [] rfl, row _ rfl, row _ rfl, row _ rfl, row _ rfl, row _ rfl, row [0x1C#8] rfl, fun _ => row _ rfl, row _ rfl,
    row _ rfl, row _ rfl, row [0x80#8] rfl, fun _ => row _ rfl, fun c hc => row _ (statusOf_of_not_mem_statusCases hc more)⟩

end Sys2Proof.Machine
end

section
/-! SUPPORT. `Unpack24Result` and `BillOptionsDecoding`: the elements of an unpacked array, by the byte and the bit they come from. -/

namespace Sys2Proof.Machine

@[simp] theorem length_bitsLsbFirst (b : Byte) : (bitsLsbFirst b).length = 8 := by
  simp [bitsLsbFirst]

theorem getD_bitsLsbFirst (b : Byte) {i : Nat} (hi : i < 8) : (bitsLsbFirst b).getD i false = b.getLsbD i := by
  simp [bitsLsbFirst, List.getD_eq_getElem?_getD, hi]

@[simp] theorem length_unpackBits (b0 b1 b2 : Byte) : (unpackBits b0 b1 b2).length = 24 := by
  simp [unpackBits]

/-- Each of the three bytes gives the eight elements from its own offset on (43_response_decoder.md R212). -/
theorem getD_unpackBits (b0 b1 b2 : Byte) {i : Nat} (hi : i < 24) :
    (unpackBits b0 b1 b2).getD i false = ([b0, b1, b2].getD (i / 8) 0).getLsbD (i % 8) := by
  obtain ⟨q, r, hr, rfl⟩ : ∃ q r, r < 8 ∧ i = 8 * q + r := ⟨i / 8, i % 8, by omega, by omega⟩
  have hq : q < 3 := by omega
  rw [show (8 * q + r) / 8 = q by omega, show (8 * q + r) % 8 = r by omega, unpackBits]
  match q with
  | 0 =>
    rw [List.getD_append _ _ _ _ (by simp; omega), List.getD_append _ _ _ _ (by simp; omega)]
    simpa using getD_bitsLsbFirst b0 hr
  | 1 =>
    rw [List.getD_append _ _ _ _ (by simp; omega), List.getD_append_right _ _ _ _ (by simp)]
    simpa using getD_bitsLsbFirst b1 hr
  | 2 =>
    rw [List.getD_append_right _ _ _ _ (by simp)]
    simpa [Nat.add_sub_cancel_left] using getD_bitsLsbFirst b2 hr

@[simp] theorem length_unpackAt (p : List Byte) (o : Nat) : (unpackAt p o).length = 24 := length_unpackBits ..

theorem getD_unpackAt (p : List Byte) (o : Nat) {i : Nat} (hi : i < 24) :
    (unpackAt p o).getD i false = (p.getD (o + i / 8) 0).getLsbD (i % 8) := by
  have hbyte (q : Nat) (hq : q < 3) : [p.getD o 0, p.getD (o + 1) 0, p.getD (o + 2) 0].getD q 0 = p.getD (o + q) 0 := by
    match q with
    | 0 => rfl
    | 1 => rfl
    | 2 => rfl
  rw [unpackAt, getD_unpackBits _ _ _ hi, hbyte _ (by omega)]

/-- Settles O14. -/
theorem unpack24Result : Obligations.Unpack24Result := fun s b0 b1 b2 =>
  ⟨unpackBits b0 b1 b2, exec_unpack24 s b0 b1 b2, length_unpackBits .., fun _ hi => getD_unpackBits _ _ _ hi⟩

/-- The three arrays of a body, each at its offset (43_response_decoder.md R210). -/
def optionsAt (o : BillOptOffsets) (p : List Byte) : BillOptions where
  acceptable := unpackAt p o.acceptable
  security := unpackAt p o.security
  routing := unpackAt p o.routing

theorem billOptionsBody_of_length_ne (o : BillOptOffsets) {p : List Byte} (h : p.length ≠ 24) :
    billOptionsBody o p = .err (.unexpectedLength p.length (some 24)) := if_pos h

theorem billOptionsBody_of_length_eq (o : BillOptOffsets) {p : List Byte} (h : p.length = 24) :
    billOptionsBody o p = .ok (.billOptions (optionsAt o p)) := if_neg (not_not_intro h)

/-- Settles O15: the three arrays are three uses of `getD_unpackAt`. -/
theorem billOptionsDecoding : Obligations.BillOptionsDecoding := by
  intro s p
  refine ⟨fun h => ?_, fun h => ⟨optionsAt s.params.billOptOffsets p, ?_, ?_⟩⟩
  · rw [exec_decodeBillOptions, billOptionsResult, expectMessage_message, billOptionsBody_of_length_ne _ h]
  · rw [exec_decodeBillOptions, billOptionsResult, expectMessage_message, billOptionsBody_of_length_eq _ h]
  · exact ⟨length_unpackAt .., length_unpackAt .., length_unpackAt .., fun i hi =>
      ⟨getD_unpackAt p _ hi, getD_unpackAt p _ hi, getD_unpackAt p _ hi⟩⟩

end Sys2Proof.Machine
end

section
/-! SUPPORT. `CassetteDecoding`, `BillTableDecoding` and `DenominationValue`: the records of a body, each by its offset. -/

namespace Sys2Proof.Machine

/-! ## Cassettes -/

/-- Cassette `k` of a body, two bytes each (43_response_decoder.md R215). -/
def cassetteAt (p : List Byte) (k : Nat) : CassetteStatus := cassetteOf (p.getD (2 * k) 0) (p.getD (2 * k + 1) 0)

/-- Two bytes more in front move every cassette on by one. -/
theorem cassetteAt_cons_cons (f n : Byte) (rest : List Byte) (k : Nat) :
    cassetteAt (f :: n :: rest) (k + 1) = cassetteAt rest k := rfl

theorem cassettesOf_eq_map (p : List Byte) : cassettesOf p = (List.range (p.length / 2)).map (cassetteAt p) := by
  induction p using cassettesOf.induct with
  | case1 f n rest ih =>
    have hlen : (f :: n :: rest).length / 2 = rest.length / 2 + 1 := Nat.add_div_right _ Nat.two_pos
    rw [cassettesOf, ih, hlen, List.range_succ_eq_map, List.map_cons, List.map_map]
    rfl
  | case2 p hp =>
    match p with
    | [] | [_] => simp [cassettesOf]
    | f :: n :: rest => exact (hp f n rest rfl).elim

theorem cassettesBody_of_odd {p : List Byte} (h : p.length % 2 = 1) :
    cassettesBody p = .err (.unexpectedLength p.length none) := if_pos (by omega)

theorem cassettesBody_of_even {p : List Byte} (h : p.length % 2 = 0) :
    cassettesBody p = .ok (.cassettes (cassettesOf p)) := if_neg (not_not_intro h)

/-- Settles O16: the cassettes are `cassetteAt` of the numbers below half the length. -/
theorem cassetteDecoding : Obligations.CassetteDecoding := by
  intro s p
  refine ⟨fun h => ?_, fun h => ⟨cassettesOf p, ?_, ?_, fun k hk => ?_⟩⟩
  · rw [exec_decodeCassetteStatus, cassettesResult, expectMessage_message, cassettesBody_of_odd h]
  · rw [exec_decodeCassetteStatus, cassettesResult, expectMessage_message, cassettesBody_of_even h]
  · simp [cassettesOf_eq_map]
  · simp [cassettesOf_eq_map, hk, cassetteAt, cassetteOf]

/-! ## The bill table -/

/-- Entry `k` of a bill table, five bytes each (R220, R221). -/
def billAt (p : List Byte) (k : Nat) : BillDescription where
  denomination := denomOf (p.getD (5 * k) 0) (p.getD (5 * k + 4) 0)
  countryCode := [p.getD (5 * k + 1) 0, p.getD (5 * k + 2) 0, p.getD (5 * k + 3) 0]

theorem billsOf_eq_map (p : List Byte) : billsOf p = (List.range (p.length / 5)).map (billAt p) := by
  induction p using billsOf.induct with
  | case1 b0 c1 c2 c3 e rest ih =>
    have hlen : (b0 :: c1 :: c2 :: c3 :: e :: rest).length / 5 = rest.length / 5 + 1 := Nat.add_div_right _ (Nat.succ_pos 4)
    rw [billsOf, ih, hlen, List.range_succ_eq_map, List.map_cons, List.map_map]
    rfl
  | case2 p hp =>
    match p with
    | [] | [_] | [_, _] | [_, _, _] | [_, _, _, _] => simp [billsOf]
    | b0 :: c1 :: c2 :: c3 :: e :: rest => exact (hp b0 c1 c2 c3 e rest rfl).elim

theorem billTableBody_of_mod_ne {p : List Byte} (h : p.length % 5 ≠ 0) :
    billTableBody p = .err (.unexpectedLength p.length none) := if_pos h

theorem billTableBody_of_mod_eq {p : List Byte} (h : p.length % 5 = 0) :
    billTableBody p = .ok (.billTable (billsOf p)) := if_neg (not_not_intro h)

/-- Settles O17: the entries are `billAt` of the numbers below a fifth of the length. -/
theorem billTableDecoding : Obligations.BillTableDecoding := by
  intro s p
  refine ⟨fun h => ?_, fun h => ⟨billsOf p, ?_, ?_, fun k hk => ?_⟩⟩
  · rw [exec_decodeBillTable, billTableResult, expectMessage_message, billTableBody_of_mod_ne h]
  · rw [exec_decodeBillTable, billTableResult, expectMessage_message, billTableBody_of_mod_eq h]
  · simp [billsOf_eq_map]
  · simp [billsOf_eq_map, hk, billAt]

/-! ## Denominations -/

/-- Bit 7 of the exponent byte is its sign (R222): it is clear exactly below 128. -/
theorem denomOf_divide (base e : Byte) : (denomOf base e).divide = decide (128 ≤ e.toNat) :=
  (BitVec.msb_eq_getLsbD_last e).symm.trans (BitVec.msb_eq_decide e)

/-- The other seven bits are the magnitude. -/
theorem denomOf_exponent (base e : Byte) : (denomOf base e).exponent.toNat = e.toNat % 128 := BitVec.toNat_setWidth ..

/-- Settles O18: the two branches of `Denomination.value` are chosen by the sign bit. -/
theorem denominationValue : Obligations.DenominationValue := by
  intro s base e
  refine ⟨denomOf base e, exec_denom s base e, fun h => ?_, fun h => ?_⟩
  · rw [Denomination.value, denomOf_divide, denomOf_exponent, Nat.mod_eq_of_lt h, if_neg (by simp; omega)]
    rfl
  · have hmag : e.toNat % 128 = e.toNat - 128 := by omega
    rw [Denomination.value, denomOf_divide, denomOf_exponent, hmag, if_pos (by simpa using h)]
    rfl

end Sys2Proof.Machine
end

section
/-! SUPPORT. `InfoDecoding`: the check of UTF-8 accepts exactly the encodings of scalar values, one after the other. In both
directions a sequence is taken off the front: by the four lengths of an encoding (`utf8WellFormed_utf8Of_append`) and by the
four classes of a first byte (`exists_utf8Of_append_of_utf8WellFormed`). -/

namespace Sys2Proof.Machine

/-! ## One byte of the check -/

section
variable {low high : Nat} {b : Byte}

/-! The rows of the table of first bytes: no overlong form (0xE0, 0xF0), no surrogate (0xED), nothing above U+10FFFF (0xF4). -/

theorem utf8Next_lead1 (h : b.toNat < 0x80) : utf8Next ⟨0, low, high⟩ b = some ⟨0, 0, 0⟩ := by
  simp [utf8Next, h]

theorem utf8Next_lead2 (h : 0xC2 ≤ b.toNat ∧ b.toNat ≤ 0xDF) : utf8Next ⟨0, low, high⟩ b = some ⟨1, 0x80, 0xBF⟩ := by
  simp [utf8Next, h, show ¬ b.toNat < 0x80 by omega]

theorem utf8Next_lead3 (h : 0xE0 ≤ b.toNat ∧ b.toNat ≤ 0xEF) :
    utf8Next ⟨0, low, high⟩ b =
      some ⟨2, if b.toNat = 0xE0 then 0xA0 else 0x80, if b.toNat = 0xED then 0x9F else 0xBF⟩ := by
  by_cases hE0 : b.toNat = 0xE0
  · simp [utf8Next, hE0]
  by_cases hED : b.toNat = 0xED
  · simp [utf8Next, hED]
  · simp [utf8Next, hE0, hED, h.2, show ¬ b.toNat < 0x80 by omega, show ¬ b.toNat ≤ 0xDF by omega,
      show 0xE1 ≤ b.toNat by omega]

theorem utf8Next_lead4 (h : 0xF0 ≤ b.toNat ∧ b.toNat ≤ 0xF4) :
    utf8Next ⟨0, low, high⟩ b =
      some ⟨3, if b.toNat = 0xF0 then 0x90 else 0x80, if b.toNat = 0xF4 then 0x8F else 0xBF⟩ := by
  by_cases hF0 : b.toNat = 0xF0
  · simp [utf8Next, hF0]
  by_cases hF4 : b.toNat = 0xF4
  · simp [utf8Next, hF4]
  · simp [utf8Next, hF0, hF4, show ¬ b.toNat < 0x80 by omega, show ¬ b.toNat ≤ 0xDF by omega, show b.toNat ≠ 0xE0 by omega,
      show b.toNat ≠ 0xED by omega, show ¬ b.toNat ≤ 0xEF by omega, show 0xF1 ≤ b.toNat ∧ b.toNat ≤ 0xF3 by omega]

/-- A first byte that the check lets pass is of one of the four classes. -/
theorem utf8Next_lead_cases {st : Utf8State} (h : utf8Next ⟨0, low, high⟩ b = some st) :
    b.toNat < 0x80 ∨ (0xC2 ≤ b.toNat ∧ b.toNat ≤ 0xDF) ∨ (0xE0 ≤ b.toNat ∧ b.toNat ≤ 0xEF) ∨
      (0xF0 ≤ b.toNat ∧ b.toNat ≤ 0xF4) := by
  by_contra hno
  simp only [utf8Next, if_true] at h
  split_ifs at h <;> omega

theorem utf8Next_continuation (due : Nat) :
    utf8Next ⟨due + 1, low, high⟩ b =
      if low ≤ b.toNat ∧ b.toNat ≤ high then some ⟨due, 0x80, 0xBF⟩ else none := rfl

/-! ## A byte list -/

theorem utf8From_cons_of_next {st st' : Utf8State} (h : utf8Next st b = some st') (rest : List Byte) :
    utf8From st (b :: rest) = utf8From st' rest := by
  rw [utf8From, h]

theorem utf8From_cons_of_none {st : Utf8State} (h : utf8Next st b = none) (rest : List Byte) :
    utf8From st (b :: rest) = false := by
  rw [utf8From, h]

/-- Between two sequences the range of the last continuation byte has no part in the check. -/
theorem utf8From_between (low high : Nat) (bytes : List Byte) : utf8From ⟨0, low, high⟩ bytes = utf8WellFormed bytes := by
  cases bytes with
  | nil => rfl
  | cons b rest => rfl

theorem utf8From_cons_continuation {due : Nat} (h : low ≤ b.toNat ∧ b.toNat ≤ high) (rest : List Byte) :
    utf8From ⟨due + 1, low, high⟩ (b :: rest) = utf8From ⟨due, 0x80, 0xBF⟩ rest :=
  utf8From_cons_of_next ((utf8Next_continuation due).trans (if_pos h)) rest

/-- Where a continuation byte is due, the next byte is one of its range. -/
theorem exists_continuation_of_utf8From {due : Nat} {bytes : List Byte} (h : utf8From ⟨due + 1, low, high⟩ bytes = true) :
    ∃ c rest, bytes = c :: rest ∧ (low ≤ c.toNat ∧ c.toNat ≤ high) ∧ utf8From ⟨due, 0x80, 0xBF⟩ rest = true := by
  cases bytes with
  | nil => simp [utf8From] at h
  | cons c rest =>
    by_cases hc : low ≤ c.toNat ∧ c.toNat ≤ high
    · exact ⟨c, rest, rfl, hc, utf8From_cons_continuation hc rest ▸ h⟩
    · rw [utf8From_cons_of_none ((utf8Next_continuation due).trans (if_neg hc))] at h
      contradiction

end

/-! ## The encoding of a scalar value passes the check -/

theorem utf8WellFormed_utf8Of_append {n : Nat} (hn : isScalar n) (rest : List Byte) :
    utf8WellFormed (utf8Of n ++ rest) = utf8WellFormed rest := by
  have hbyte {k : Nat} (hk : k < 256) : (BitVec.ofNat 8 k).toNat = k := Nat.mod_eq_of_lt hk
  have htail (k : Nat) : 0x80 ≤ (BitVec.ofNat 8 (0x80 + k % 64)).toNat ∧ (BitVec.ofNat 8 (0x80 + k % 64)).toNat ≤ 0xBF := by
    rw [hbyte (by omega)]
    omega
  rw [isScalar] at hn
  rw [utf8Of]
  split_ifs with h1 h2 h3
  · have hlead : (BitVec.ofNat 8 n).toNat = n := hbyte (by omega)
    exact utf8From_cons_of_next (utf8Next_lead1 (by omega)) rest
  · have hlead : (BitVec.ofNat 8 (0xC0 + n / 64)).toNat = 0xC0 + n / 64 := hbyte (by omega)
    calc
      _ = utf8From ⟨1, _, _⟩ _ := utf8From_cons_of_next (utf8Next_lead2 (by omega)) _
      _ = utf8From ⟨0, _, _⟩ _ := utf8From_cons_continuation (htail n) _
      _ = _ := utf8From_between ..
  · have hlead : (BitVec.ofNat 8 (0xE0 + n / 4096)).toNat = 0xE0 + n / 4096 := hbyte (by omega)
    have hsecond : (BitVec.ofNat 8 (0x80 + n / 64 % 64)).toNat = 0x80 + n / 64 % 64 := hbyte (by omega)
    calc
      _ = utf8From ⟨2, _, _⟩ _ := utf8From_cons_of_next (utf8Next_lead3 (by omega)) _
      _ = utf8From ⟨1, _, _⟩ _ := utf8From_cons_continuation (by rw [hlead, hsecond]; split_ifs <;> omega) _
      _ = utf8From ⟨0, _, _⟩ _ := utf8From_cons_continuation (htail n) _
      _ = _ := utf8From_between ..
  · have hlead : (BitVec.ofNat 8 (0xF0 + n / 262144)).toNat = 0xF0 + n / 262144 := hbyte (by omega)
    have hsecond : (BitVec.ofNat 8 (0x80 + n / 4096 % 64)).toNat = 0x80 + n / 4096 % 64 := hbyte (by omega)
    calc
      _ = utf8From ⟨3, _, _⟩ _ := utf8From_cons_of_next (utf8Next_lead4 (by omega)) _
      _ = utf8From ⟨2, _, _⟩ _ := utf8From_cons_continuation (by rw [hlead, hsecond]; split_ifs <;> omega) _
      _ = utf8From ⟨1, _, _⟩ _ := utf8From_cons_continuation (htail (n / 64)) _
      _ = utf8From ⟨0, _, _⟩ _ := utf8From_cons_continuation (htail n) _
      _ = _ := utf8From_between ..

/-! ## What passes the check starts with the encoding of a scalar value -/

theorem exists_utf8Of_eq_one {b : Byte} (hb : b.toNat < 0x80) : ∃ n, isScalar n ∧ utf8Of n = [b] :=
  ⟨b.toNat, .inl (by omega), by rw [utf8Of, if_pos hb, BitVec.ofNat_toNat, BitVec.setWidth_eq]⟩

theorem exists_utf8Of_eq_two {b c : Byte} (hb : 0xC2 ≤ b.toNat ∧ b.toNat ≤ 0xDF)
    (hc : 0x80 ≤ c.toNat ∧ c.toNat ≤ 0xBF) : ∃ n, isScalar n ∧ utf8Of n = [b, c] := by
  refine ⟨(b.toNat - 0xC0) * 64 + (c.toNat - 0x80), .inl (by omega), ?_⟩
  rw [utf8Of, if_neg (by omega), if_pos (by omega)]
  simp only [List.cons.injEq, and_true]
  constructor <;> bv_omega

theorem exists_utf8Of_eq_three {b c d : Byte} (hb : 0xE0 ≤ b.toNat ∧ b.toNat ≤ 0xEF)
    (hc : (if b.toNat = 0xE0 then 0xA0 else 0x80) ≤ c.toNat ∧ c.toNat ≤ if b.toNat = 0xED then 0x9F else 0xBF)
    (hd : 0x80 ≤ d.toNat ∧ d.toNat ≤ 0xBF) : ∃ n, isScalar n ∧ utf8Of n = [b, c, d] := by
  have hnotLong : 0x80 ≤ c.toNat ∧ (b.toNat = 0xE0 → 0xA0 ≤ c.toNat) := by split_ifs at hc <;> omega
  have hnoSurrogate : c.toNat ≤ 0xBF ∧ (b.toNat = 0xED → c.toNat ≤ 0x9F) := by split_ifs at hc <;> omega
  refine ⟨(b.toNat - 0xE0) * 4096 + (c.toNat - 0x80) * 64 + (d.toNat - 0x80), ?_, ?_⟩
  · rw [isScalar]
    omega
  rw [utf8Of, if_neg (by omega), if_neg (by omega), if_pos (by omega)]
  simp only [List.cons.injEq, and_true]
  refine ⟨?_, ?_, ?_⟩ <;> bv_omega

theorem exists_utf8Of_eq_four {b c d e : Byte} (hb : 0xF0 ≤ b.toNat ∧ b.toNat ≤ 0xF4)
    (hc : (if b.toNat = 0xF0 then 0x90 else 0x80) ≤ c.toNat ∧ c.toNat ≤ if b.toNat = 0xF4 then 0x8F else 0xBF)
    (hd : 0x80 ≤ d.toNat ∧ d.toNat ≤ 0xBF) (he : 0x80 ≤ e.toNat ∧ e.toNat ≤ 0xBF) :
    ∃ n, isScalar n ∧ utf8Of n = [b, c, d, e] := by
  have hnotLong : 0x80 ≤ c.toNat ∧ (b.toNat = 0xF0 → 0x90 ≤ c.toNat) := by split_ifs at hc <;> omega
  have hinRange : c.toNat ≤ 0xBF ∧ (b.toNat = 0xF4 → c.toNat ≤ 0x8F) := by split_ifs at hc <;> omega
  refine ⟨(b.toNat - 0xF0) * 262144 + (c.toNat - 0x80) * 4096 + (d.toNat - 0x80) * 64 + (e.toNat - 0x80), ?_, ?_⟩
  · rw [isScalar]
    omega
  rw [utf8Of, if_neg (by omega), if_neg (by omega), if_neg (by omega)]
  simp only [List.cons.injEq, and_true]
  refine ⟨?_, ?_, ?_, ?_⟩ <;> bv_omega

/-- The first byte tells how many continuation bytes the sequence has. -/
theorem exists_utf8Of_append_of_utf8WellFormed {b : Byte} {bytes : List Byte} (h : utf8WellFormed (b :: bytes) = true) :
    ∃ n rest, isScalar n ∧ b :: bytes = utf8Of n ++ rest ∧ utf8WellFormed rest = true := by
  obtain ⟨st, hst⟩ : ∃ st, utf8Next ⟨0, 0, 0⟩ b = some st := by
    refine Option.ne_none_iff_exists'.mp fun hnone => ?_
    rw [utf8WellFormed, utf8From_cons_of_none hnone] at h
    contradiction
  rcases utf8Next_lead_cases hst with hb | hb | hb | hb
  · rw [utf8WellFormed, utf8From_cons_of_next (utf8Next_lead1 hb)] at h
    obtain ⟨n, hn, hseq⟩ := exists_utf8Of_eq_one hb
    exact ⟨n, bytes, hn, by rw [hseq]; rfl, h⟩
  · rw [utf8WellFormed, utf8From_cons_of_next (utf8Next_lead2 hb)] at h
    obtain ⟨c, rest, rfl, hc, h⟩ := exists_continuation_of_utf8From h
    obtain ⟨n, hn, hseq⟩ := exists_utf8Of_eq_two hb hc
    exact ⟨n, rest, hn, by rw [hseq]; rfl, utf8From_between .. ▸ h⟩
  · rw [utf8WellFormed, utf8From_cons_of_next (utf8Next_lead3 hb)] at h
    obtain ⟨c, _, rfl, hc, h⟩ := exists_continuation_of_utf8From h
    obtain ⟨d, rest, rfl, hd, h⟩ := exists_continuation_of_utf8From h
    obtain ⟨n, hn, hseq⟩ := exists_utf8Of_eq_three hb hc hd
    exact ⟨n, rest, hn, by rw [hseq]; rfl, utf8From_between .. ▸ h⟩
  · rw [utf8WellFormed, utf8From_cons_of_next (utf8Next_lead4 hb)] at h
    obtain ⟨c, _, rfl, hc, h⟩ := exists_continuation_of_utf8From h
    obtain ⟨d, _, rfl, hd, h⟩ := exists_continuation_of_utf8From h
    obtain ⟨e, rest, rfl, he, h⟩ := exists_continuation_of_utf8From h
    obtain ⟨n, hn, hseq⟩ := exists_utf8Of_eq_four hb hc hd he
    exact ⟨n, rest, hn, by rw [hseq]; rfl, utf8From_between .. ▸ h⟩

/-! ## Texts -/

theorem utf8WellFormed_flatMap {text : List Nat} (h : ∀ n ∈ text, isScalar n) :
    utf8WellFormed (text.flatMap utf8Of) = true := by
  induction text with
  | nil => rfl
  | cons n text ih =>
    rw [List.flatMap_cons, utf8WellFormed_utf8Of_append (h n List.mem_cons_self)]
    exact ih fun m hm => h m (List.mem_cons_of_mem n hm)

theorem length_utf8Of_pos (n : Nat) : 0 < (utf8Of n).length := by
  rw [utf8Of]
  split_ifs <;> simp

theorem isUtf8Text_of_utf8WellFormed (bytes : List Byte) (h : utf8WellFormed bytes = true) : isUtf8Text bytes := by
  match bytes with
  | [] => exact ⟨[], by simp, rfl⟩
  | b :: bytes =>
    obtain ⟨n, rest, hn, hsplit, hrest⟩ := exists_utf8Of_append_of_utf8WellFormed h
    have hshort : rest.length < bytes.length + 1 := by
      rw [← List.length_cons, hsplit, List.length_append]
      exact Nat.lt_add_of_pos_left (length_utf8Of_pos n)
    obtain ⟨text, htext, rfl⟩ := isUtf8Text_of_utf8WellFormed rest hrest
    exact ⟨n :: text, List.forall_mem_cons.mpr ⟨hn, htext⟩, hsplit⟩
termination_by bytes.length

/-- The check decides what a text is (43_response_decoder.md R229, assumption log 7). -/
theorem utf8WellFormed_iff {bytes : List Byte} : utf8WellFormed bytes = true ↔ isUtf8Text bytes := by
  refine ⟨isUtf8Text_of_utf8WellFormed bytes, ?_⟩
  rintro ⟨text, htext, rfl⟩
  exact utf8WellFormed_flatMap htext

theorem textOf_of_isUtf8Text {bytes : List Byte} (h : isUtf8Text bytes) : textOf bytes = .text bytes :=
  if_pos (utf8WellFormed_iff.mpr h)

theorem textOf_of_not_isUtf8Text {bytes : List Byte} (h : ¬ isUtf8Text bytes) : textOf bytes = .text unknownText :=
  if_neg (utf8WellFormed_iff.not.mpr h)

/-! ## The asset number -/

/-- A number read on after `n`, most significant byte first. -/
theorem foldl_bigEndian (n : Nat) (bytes : List Byte) :
    bytes.foldl (fun n b => 256 * n + b.toNat) n =
      n * 256 ^ bytes.length + ∑ j ∈ Finset.range bytes.length, (bytes.getD j 0).toNat * 256 ^ (bytes.length - 1 - j) := by
  induction bytes generalizing n with
  | nil => simp
  | cons b bytes ih =>
    have hexp (j : Nat) : bytes.length - 1 - j = bytes.length - (j + 1) := by omega
    rw [List.foldl_cons, ih, List.length_cons, Finset.sum_range_succ']
    simp only [List.getD_cons_succ, List.getD_cons_zero, hexp, Nat.add_sub_cancel, Nat.sub_zero]
    ring

/-- Eight bytes inside the body, most significant byte first (43_response_decoder.md R228). -/
theorem bigEndian_take_drop {p : List Byte} {o : Nat} (h : o + 8 ≤ p.length) :
    bigEndian ((p.drop o).take 8) = ∑ j ∈ Finset.range 8, (p.getD (o + j) 0).toNat * 256 ^ (7 - j) := by
  have hlen : ((p.drop o).take 8).length = 8 := by
    rw [List.length_take, List.length_drop]
    omega
  rw [bigEndian, foldl_bigEndian, hlen, Nat.zero_mul, Nat.zero_add]
  refine Finset.sum_congr rfl fun j hj => ?_
  rw [List.getD_eq_getElem?_getD, List.getElem?_take_of_lt (Finset.mem_range.mp hj), List.getElem?_drop,
    List.getD_eq_getElem?_getD]

/-! ## The record -/

theorem infoFieldOf_assetNumber {f : InfoField} (h : f.name = .assetNumber) (p : List Byte) :
    infoFieldOf p f = (.assetNumber, .number (bigEndian ((p.drop f.offset).take 8))) := by
  rw [infoFieldOf, h]

theorem infoFieldOf_text {f : InfoField} (h : f.name ≠ .assetNumber) (p : List Byte) :
    infoFieldOf p f = (f.name, textOf ((p.drop f.offset).take f.length)) := by
  rw [infoFieldOf]
  split
  · contradiction
  · rfl

@[simp] theorem infoOf_raw (layout : Option (List InfoField)) (p : List Byte) : (infoOf layout p).raw = p := by
  cases layout <;> rfl

theorem infoOf_fields_none (p : List Byte) : (infoOf none p).fields = [] := rfl

theorem infoOf_fields_some (fs : List InfoField) (p : List Byte) : (infoOf (some fs) p).fields = fs.map (infoFieldOf p) := rfl

theorem infoBody_of_length_ne (layout : Option (List InfoField)) {p : List Byte} (h : p.length ≠ 109) :
    infoBody layout p = .err (.unexpectedLength p.length (some 109)) := if_pos h

theorem infoBody_of_length_eq (layout : Option (List InfoField)) {p : List Byte} (h : p.length = 109) :
    infoBody layout p = .ok (.info (infoOf layout p)) := if_neg (not_not_intro h)

/-- Settles O19: field by field, the asset number by `bigEndian_take_drop` and every other field by `utf8WellFormed_iff`. -/
theorem infoDecoding : Obligations.InfoDecoding := by
  intro s p
  refine ⟨fun h => ?_, fun h => ⟨infoOf s.params.infoLayout p, ?_, infoOf_raw .., fun hnone => ?_, fun fs hsome => ?_⟩⟩
  · rw [exec_decodeInfo, infoResult, expectMessage_message, infoBody_of_length_ne _ h]
  · rw [exec_decodeInfo, infoResult, expectMessage_message, infoBody_of_length_eq _ h]
  · rw [hnone, infoOf_fields_none]
  rw [hsome, infoOf_fields_some]
  refine ⟨List.length_map .., fun k f hk => ?_⟩
  rw [List.getElem?_map, hk, Option.map_some]
  refine ⟨fun hasset hin => ?_, fun htext => ?_⟩
  · rw [infoFieldOf_assetNumber hasset, bigEndian_take_drop (h ▸ hin)]
  · rw [infoFieldOf_text htext]
    exact ⟨fun hutf8 => by rw [textOf_of_isUtf8Text hutf8], fun hutf8 => by rw [textOf_of_not_isUtf8Text hutf8, unknownText]⟩

end Sys2Proof.Machine
end

section
/-! SUPPORT. `ErrorTable` and `ResponsesWait`: the NACK column of the error table is the branch that `State.failRx` takes, and bytes of
the slave that the block does not read stay in the input queue. -/

namespace Sys2Proof.Machine

/-! ## The NACK column -/

theorem Err.sendsNack_of_frame {e : Err} (h : e.errClass = .frame) (p : Params) : e.sendsNack p = true := by
  simp only [Err.sendsNack, h]

theorem Err.sendsNack_readTimeout (p : Params) : Err.sendsNack p .readTimeout = p.nackOnTimeout := rfl

/-- For the four errors of `fail_rx` the column of 60_exceptions.md R262 is the condition of 42_link_protocol.md R175. -/
theorem Err.sendsNack_iff {e : Err} {x : Byte} {n : Nat} {u v : Word16}
    (he : e ∈ [.readTimeout, .addressMismatch x, .frameTooShort n, .integrityError u v]) (p : Params) :
    e.sendsNack p = true ↔ ¬ (e = .readTimeout ∧ p.nackOnTimeout = false) := by
  have frame {e : Err} (hk : e.errClass = .frame) :
      e.sendsNack p = true ↔ ¬ (e = .readTimeout ∧ p.nackOnTimeout = false) :=
    iff_of_true (Err.sendsNack_of_frame hk p) fun ⟨ht, _⟩ => by simp [ht, Err.errClass] at hk
  simp only [List.mem_cons, List.not_mem_nil, or_false] at he
  rcases he with rfl | rfl | rfl | rfl
  · simp [Err.sendsNack_readTimeout]
  · exact frame rfl
  · exact frame rfl
  · exact frame rfl

theorem State.sendNack_phase {s : State} (hw : s.writeSucceeds = true) (e : Err) : (s.sendNack e).phase = .nackSent := by
  rcases s.sendNack_cases e with ⟨-, h⟩ | ⟨hf, -⟩
  · rw [h]
  · simp [hw] at hf

/-- Settles O35: the columns are read off row by row, and `State.failRx_cases` branches on the condition that `Err.sendsNack_iff` finds
in the NACK column. -/
theorem errorTable : Obligations.ErrorTable := by
  refine ⟨fun s e x n u v hw he => ?nack, fun p n x cmd u v body o => ?table⟩
  case nack =>
    have column := Err.sendsNack_iff he s.params
    rcases s.failRx_cases e with ⟨ht, hn, h⟩ | ⟨hc, h⟩
    · rw [h, if_neg fun hs => column.mp hs ⟨ht, hn⟩]
      rfl
    · rw [h, if_pos (column.mpr hc)]
      exact State.sendNack_phase (s := s.setPendErr e) hw e
  case table =>
    intro row
    have hframe {e : Err} {code : Byte} (hc : e.code = code) (hk : e.errClass = .frame) : row e code .frame true :=
      ⟨hc, hk, Err.sendsNack_of_frame hk p⟩
    exact ⟨⟨rfl, rfl, rfl⟩, ⟨rfl, rfl, rfl⟩, ⟨rfl, rfl, Err.sendsNack_readTimeout p⟩, ⟨rfl, rfl, rfl⟩, hframe rfl rfl,
      hframe rfl rfl, hframe rfl rfl, ⟨rfl, rfl, rfl⟩, ⟨rfl, rfl, rfl⟩, ⟨rfl, rfl, rfl⟩, ⟨rfl, rfl, rfl⟩, ⟨rfl, rfl, rfl⟩,
      ⟨rfl, rfl, rfl⟩, ⟨rfl, rfl, rfl⟩⟩

/-! ## Bytes that wait -/

/-- Settles O46: every row of the slave comes to `receiveBytes` (`exec_of_encode_slave`), which outside the receive phase only queues
the bytes. -/
theorem responsesWait : Obligations.ResponsesWait := by
  intro s i bytes ho hr he
  rw [exec_of_encode_slave s he]
  rcases receiveBytes_cases bytes s with ⟨hclosed, -⟩ | ⟨-, hreceiving, -⟩ | ⟨-, -, hqueued⟩
  · simp [ho] at hclosed
  · exact absurd hreceiving hr
  · exact hqueued

end Sys2Proof.Machine
end

section
/-! SUPPORT. `ConstructSuccess` and `InvReset`: the succeeding branch of `construct` on the block before construction, and the
invariant in the idle state that it leaves. -/

namespace Sys2Proof.Machine

/-! ## Construction -/

/-- The succeeding branch of `construct` (10_state.md R41, 70_reset_and_hazards.md R301). -/
theorem exec_construct_openOk {s : State} (ho : s.opened = false) (hk : s.openOk = true) (path : String) (a : Byte) (b : Baud) :
    exec (.construct path a b) s = .next { s with
      addr := a, baud := b, opened := true, lastReq := s.now, phase := .idle, rxCount := 0, pendErr := none
      res := none, outQueue := [], breakOn := false
      port := some { path := path, rate := b.rate, parity := .none, flow := .none, readTimeout := Config.tRead } } := by
  rcases execConstruct_cases path a b s with ⟨ho', -⟩ | ⟨-, -, h⟩ | ⟨-, hk', -⟩
  · simp [ho] at ho'
  · exact h
  · simp [hk] at hk'

/-- `State.reset` before its construction: no block, and a transport that was not opened. -/
def State.beforeReset : State := { State.reset with opened := false, port := none }

theorem exec_construct_beforeReset : exec (.construct "" 0x00#8 .slow) State.beforeReset = .next State.reset :=
  exec_construct_openOk rfl rfl "" 0x00#8 .slow

/-- Settles O25: the succeeding branch of `construct`, each rate being its number of 00_scope.md R5;
`State.beforeReset` is the block that it brings to `State.reset`. -/
theorem constructSuccess : Obligations.ConstructSuccess := by
  refine ⟨fun s path a b ho hk => ?_, State.beforeReset, "", 0x00#8, .slow, rfl, rfl, exec_construct_beforeReset⟩
  rw [exec_construct_openOk ho hk]
  cases b with
  | slow => rfl
  | fast => rfl

/-! ## The invariant after reset -/

/-- What `State.reset` holds of the part of the invariant that does not look at `state`: empty buffers, no result, no break. -/
theorem State.reset_running : State.reset.Running where
  pollPositive := by decide
  noResultYet _ := rfl
  rxForm := Memory.wf_nil
  txForm := Memory.wf_nil
  txLenBound := Nat.zero_le _
  stampPast := Nat.le_refl _
  noBreak := rfl

/-- Settles O52: in `Idle`, with nothing counted, the rest of the invariant asks nothing (`State.Running.inv_uncounted`). -/
theorem invReset : Obligations.InvReset :=
  State.reset_running.inv_uncounted (by decide) (by decide) rfl (fun _ => rfl) nofun nofun

end Sys2Proof.Machine
end
